-- ==== Sys2Proof/Word.lean ====
section
/-! DEFINITION. The words of Serriryn (R8: bit 0 is the least significant bit, multi-byte values are little-endian)
and the shape of a sparse table. Their operations stand in Machine/Bits.lean and Machine/Table.lean. -/
namespace Sys2Proof

/-- One byte. -/
abbrev Byte := BitVec 8
/-- A 16-bit word: one handshake of a lane group (R417), one predicate register (R132). -/
abbrev W16 := BitVec 16
/-- A 32-bit word: one vector lane (R132), one binary32 pattern. -/
abbrev W32 := BitVec 32
/-- A 64-bit word: an instruction (R171), a scalar register (R132), a mould word (R271). -/
abbrev W64 := BitVec 64

/-- A sparse table by number: the keys rise strictly, and a number that is not listed reads as the default that the
reading operation names. -/
abbrev Tbl (α : Type) := List (Nat × α)

end Sys2Proof
end

