-- ==== Sys2Proof/Syntax.lean ====
section
/-! DEFINITION. The commands of the block: one constructor of `Instr` per row of the table of operations and events, and
the records its operands are made of. What an operand leaves out is computed from the state; what it holds is what the
outside (host, peer device, board, pins, physics) decides. -/
namespace Sys2Proof

/-! ### Who acts -/

/-- Upsets that struck the stores of one cluster since its last event (R237: they come from outside the logic): flipped
code bits of instruction-store words and local-store words (word, bit 0 to 71 of the (72,64) word) and of stationary
latches (latch 128r + c, bit 0 to 21). -/
structure Upsets where
  istore : List (Nat × Nat) := []
  ls     : List (Nat × Nat) := []
  latch  : List (Nat × Nat) := []
  deriving DecidableEq, Repr

/-- A context that issues its next instruction (R141): logical tile, cluster (0 to 3 for A0, A1, B0, B1), context. -/
structure Issue where
  tile : Fin 48
  cluster : Fin 4
  ctx : Fin 256
  upsets : Upsets := {}
  deriving DecidableEq, Repr

/-- A cluster whose launch list, pour list or array takes its next step. -/
structure ClusterAt where
  tile : Fin 48
  cluster : Fin 4
  upsets : Upsets := {}
  deriving DecidableEq, Repr

/-- A region whose MV list takes its next step; upsets of the cluster whose local store it reads, and flipped bits of the
MV latches (set, column, element, bit) (R116). -/
structure MvAt where
  tile : Fin 48
  region : Fin 2
  upsets : Upsets := {}
  mvLatch : List (Nat × Nat × Nat × Nat) := []
  deriving DecidableEq, Repr

/-- One of the eight stream engines of a tile (R276 order: A0.0, A0.1, A1.0 .. B1.1). -/
structure EngineAt where
  tile : Fin 48
  engine : Fin 8
  upsets : Upsets := {}
  deriving DecidableEq, Repr

/-- A mould list: one of the 18 lists of a tile (R276, R277: 0 to 3 pour, 4 and 5 MV, 6 to 9 launch, 10 to 17 stream) or
one of the six of a hub (R285: FENCE, REDUCE, UPDATE, PORT0, PORT1, STREAM). -/
inductive ListAt where
  | tile (t : Fin 48) (l : Fin 18)
  | hub (h : Fin 8) (l : Fin 6)
  deriving DecidableEq, Repr

/-- A fabric port Hn.Pm (R379). -/
structure PortAt where
  hub : Fin 8
  port : Fin 2
  deriving DecidableEq, Repr

/-- A bank queue of a hub's sorter (R218): HBM channel, pseudo-channel and bank, or slow-tier channel, sub-channel and bank. -/
inductive BankAt where
  | hbm (chan : Fin 96) (pc : Fin 2) (bank : Fin 64)
  | slow (chan : Fin 2) (sub : Fin 4) (bank : Fin 16)
  deriving DecidableEq, Repr

/-- Symbol errors that struck stored sectors (R237, R240): byte address of the sector, symbol 0 to 35, error pattern. -/
abbrev SectorHits := List (Nat × Nat × Byte)

/-- What errors struck a hub's stores since its last event: symbol errors of stored sectors, and flipped code bits of hub SRAM words
(R237: structure 0 valid bitmap, 1 add buffer, 2 map-out list; word; bit 0 to 71 of the (72,64) word). -/
structure Hits where
  sectors : SectorHits := []
  sram : List (Fin 3 × Nat × Nat) := []
  deriving DecidableEq, Repr

/-! ### Host frames -/

/-- A YHL frame of the host (R510). LEN is the payload's length; OPCODE is the command's own. -/
structure Frame where
  tag : Byte
  status : Byte := 0
  flags : Byte := 0
  handle : W32 := 0
  fcrc : W32 := 0
  param0 : W64 := 0
  param1 : W64 := 0
  payload : List Byte := []
  deriving DecidableEq, Repr

/-! ### Messages of the fabric -/

/-- Arrival of a priority message (R398): the port it came in on, whether it opens a new PRIO flit, the sequence number and the
acknowledgement of its flit (R384), and words 0 and 1. -/
structure PrioHead where
  port : Fin 16
  newFlit : Bool := true
  seq : BitVec 24 := 0
  ackc : Bool := false
  ack : BitVec 24 := 0
  bcast : Bool := false
  src : BitVec 11
  dst : BitVec 11 := 0
  epoch : W32 := 0
  step : W64 := 0
  deriving DecidableEq, Repr

/-- Body of a VOTE (R367). -/
structure VoteBody where
  nonfinite : Bool
  cls : BitVec 4
  deriving DecidableEq, Repr

/-- Body of an OUTCOME (R367). -/
structure OutcomeBody where
  discard : Bool
  reason : BitVec 3
  deriving DecidableEq, Repr

/-- Body of a FAULT_NOTICE (R446). -/
structure NoticeBody where
  epoch : W32
  code : Byte
  die : BitVec 6
  detail0 : W64
  detail1 : W64
  seq : W64
  deriving DecidableEq, Repr

/-- Body of a RESTART READY (R451, R494): GEN, FLAGS, slot generations, and word 7 (PDIGEST, REFUSAL). -/
structure ReadyBody where
  gen : W64
  flags : BitVec 9
  slot0Gen : W64 := 0
  slot1Gen : W64 := 0
  pdigest : BitVec 48 := 0
  refusal : Byte := 0
  deriving DecidableEq, Repr

/-- Body of a RESTART SUBST (R451). -/
structure SubstBody where
  lost : BitVec 11
  spare : BitVec 11
  source : BitVec 11
  deriving DecidableEq, Repr

/-- Body of a RESTART GO (R451). -/
structure GoBody where
  attempt : BitVec 4
  gen : W64
  mode : BitVec 2
  commit : Bool
  substs : Byte
  deriving DecidableEq, Repr

/-- Body of a DIGEST (R331). -/
structure DigestBody where
  op : W32
  digest : W64
  deriving DecidableEq, Repr

/-- Body of a PHASE (R375): the round and phase that the boundary opens. -/
structure PhaseBody where
  round : W16
  place : Bool
  deriving DecidableEq, Repr

/-- What a priority message carries. -/
inductive PrioBody where
  | vote (b : VoteBody)
  | outcome (b : OutcomeBody)
  | notice (b : NoticeBody)
  | ready (b : ReadyBody)
  | subst (b : SubstBody)
  | go (b : GoBody)
  | done (gen : W64)
  | openJob
  | stall (attempt : BitVec 4)
  | digest (b : DigestBody)
  | phase (b : PhaseBody)
  | phaseDone (b : PhaseBody)
  | timeSync (t1 : Nat)
  | timeReply (t2 t3 : Nat)
  deriving DecidableEq, Repr

/-! ### Link level -/

/-- A flit on a lane (R384): header fields and the body, its LEN + 1 valid bytes. fec lists the FEC codewords that the flit lies in
(R380, R386): the symbols in error, and whether the codeword ends in this flit. -/
structure Flit where
  type : BitVec 4
  seq : BitVec 24 := 0
  ackc : Bool := false
  ack : BitVec 24 := 0
  crc : W32 := 0
  stream : BitVec 12 := 0
  body : List Byte := []
  fec : List (Nat × Bool) := []
  deriving DecidableEq, Repr

/-- Body of an IDENT record (R381). -/
structure IdentBody where
  rank : BitVec 11
  port : BitVec 4
  version : BitVec 4
  features : W64 := 0
  deriving DecidableEq, Repr

/-- A MEASURE record (R405): the far end's request, with the turnaround stamped here, or the echo of an own one, with its
round trip and the far turnaround, in ns. -/
inductive MeasureBody where
  | request (turnaround : Nat)
  | echo (roundTrip turnaround : Nat)
  deriving DecidableEq, Repr

/-- A VER record on a D2D channel (R431): die kind (0 tile, 1 hub, 2 crown), revision, panel channel version, features,
arithmetic contract version. -/
structure VerBody where
  kind : BitVec 2
  revision : Byte
  version : Byte
  features : W64
  contract : Byte
  deriving DecidableEq, Repr

/-! ### Time and power -/

/-- A PTP message's stamps in units of 2^-16 ns, its domain and its source port identity (R528). -/
structure PtpMsg where
  domain : Byte
  source : W64
  seqId : W16 := 0
  stamp : Nat := 0
  ingress : Nat := 0
  twoStep : Bool := false
  deriving DecidableEq, Repr

/-- What an Announce offers to the best master clock algorithm (IEEE 1588-2019): priority1, class, accuracy, variance,
priority2, grandmaster identity, steps removed, in the order they compare. -/
structure AnnounceBody where
  priority1 : Byte
  clockClass : Byte
  accuracy : Byte
  variance : W16
  priority2 : Byte
  identity : W64
  stepsRemoved : W16
  deriving DecidableEq, Repr

/-- A die with a rail of its own: tiles T00 to T47, then hubs H0 to H7 (coded as FAULT_NOTICE DIE, R446). -/
abbrev RailDie := Fin 56

/-- What the board shows at order 2 (R475, R478, R488): the flash devices that answer, the 16 bytes of the placement
record if the EEPROM answers, and the strap. -/
structure Board where
  flash0 : Bool := true
  flash1 : Bool := false
  eeprom : Option (List Byte) := none
  forceService : Bool := false
  deriving DecidableEq, Repr

/-- Groups that fail a PRBS-31 training (R427): hub, channel, true for the hub's receiving direction, group. -/
abbrev GroupFails := List (Nat × Nat × Bool × Nat)

/-- Result of die self-test (R490): positions and hubs that fail, revisions by position and by hub, and the groups that
fail the channel training that follows. -/
structure SelfTest where
  badTiles : List Nat := []
  badHubs : List Nat := []
  tileRev : List Byte := []
  hubRev : List Byte := []
  groups : GroupFails := []
  deriving DecidableEq, Repr

/-- Result of memory training (R491): by hub, the stacks trained and the capacity code of its two slow-tier channels. -/
structure MemTrain where
  hbm : List Nat := []
  slow : List (Nat × Nat) := []
  deriving DecidableEq, Repr

/-- The commands: one constructor per row of opcode_table.json, in its order. -/
inductive Instr where
  -- host link
  | start (f : Frame)
  | suspend (f : Frame)
  | resume (f : Frame)
  | cancel (f : Frame)
  | switchMapping (f : Frame)
  | exportCkpt (f : Frame)
  | exportChunk (handle : W32)
  | importCkpt (f : Frame)
  | ckptData (f : Frame)
  | replayStep (f : Frame)
  | replayDone
  | readReg (f : Frame)
  | writeReg (f : Frame)
  | hubPlateClearGo (f : Frame)
  | hubPlateClearDone (h : Fin 8)
  | drossClearClass (f : Frame)
  | drossClearAll (f : Frame)
  | logClear (f : Frame)
  | timeNowRead (f : Frame)
  | attest (f : Frame)
  | mitten (f : Frame)
  | mittenComplete
  | wake (f : Frame)
  | wakeComplete
  | service (f : Frame)
  | feedManifest (f : Frame)
  | feedSegment (f : Frame)
  | erase (f : Frame)
  | program (f : Frame)
  | read (f : Frame)
  | verify (f : Frame)
  | revoke (f : Frame)
  | exit (f : Frame)
  | yhlLinkUp (version : Byte) (flightNs : Nat)
  | yhlLinkDown (unacked : Nat)
  -- thread instructions
  | vadd (i : Issue)
  | vsub (i : Issue)
  | vmul (i : Issue)
  | vfma (i : Issue)
  | vmin (i : Issue)
  | vmax (i : Issue)
  | vabs (i : Issue)
  | vneg (i : Issue)
  | vcmp (i : Issue)
  | vsel (i : Issue)
  | vmov (i : Issue)
  | iadd (i : Issue)
  | isub (i : Issue)
  | imul (i : Issue)
  | iand (i : Issue)
  | ior (i : Issue)
  | ixor (i : Issue)
  | ishl (i : Issue)
  | ishr (i : Issue)
  | isar (i : Issue)
  | imin (i : Issue)
  | imax (i : Issue)
  | icmp (i : Issue)
  | vlane (i : Issue)
  | sadd (i : Issue)
  | ssub (i : Issue)
  | smul (i : Issue)
  | sand (i : Issue)
  | sor (i : Issue)
  | sxor (i : Issue)
  | sshl (i : Issue)
  | sshr (i : Issue)
  | ssar (i : Issue)
  | smovi (i : Issue)
  | slui (i : Issue)
  | scmp (i : Issue)
  | pand (i : Issue)
  | por (i : Issue)
  | pxor (i : Issue)
  | pnot (i : Issue)
  | pset (i : Issue)
  | pmov (i : Issue)
  | cvt (i : Issue)
  | cvtsr (i : Issue)
  | mxscale (i : Issue)
  | exp2 (i : Issue)
  | log2 (i : Issue)
  | rcp (i : Issue)
  | rsq (i : Issue)
  | tanh (i : Issue)
  | sigm (i : Issue)
  | erf (i : Issue)
  | drelu (i : Issue)
  | dlrelu (i : Issue)
  | dsigm (i : Issue)
  | dtanh (i : Issue)
  | dexp (i : Issue)
  | dsmax (i : Issue)
  | hsum (i : Issue)
  | hmax (i : Issue)
  | hmin (i : Issue)
  | hdot (i : Issue)
  | lld (i : Issue)
  | lst (i : Issue)
  | lgath (i : Issue)
  | lscat (i : Issue)
  | pld (i : Issue)
  | pst (i : Issue)
  | mld (i : Issue)
  | mst (i : Issue)
  | gath (i : Issue)
  | scat (i : Issue)
  | scadd (i : Issue)
  | skick (i : Issue)
  | psetn (i : Issue)
  | wait (i : Issue)
  | signal (i : Issue)
  | bar (i : Issue)
  | draw (i : Issue)
  | vdraw16 (i : Issue)
  | vdraw32 (i : Issue)
  | dmask (i : Issue)
  | br (i : Issue)
  | brp (i : Issue)
  | loop (i : Issue)
  | halt (i : Issue)
  | trap (i : Issue)
  -- tile lists
  | launch (c : ClusterAt)
  | launchComplete (c : ClusterAt) (index : Nat)
  | tokenSignal (index : Nat)
  | repeatBegin (l : ListAt)
  | repeatEnd (l : ListAt)
  | load (c : ClusterAt)
  | passF (c : ClusterAt)
  | passD (c : ClusterAt)
  | passW (c : ClusterAt)
  | edgeDrain (c : ClusterAt)
  | edgePreload (c : ClusterAt)
  | siteDrain (c : ClusterAt)
  | sitePreload (c : ClusterAt)
  | fillerPour (c : ClusterAt)
  | pourEnd (c : ClusterAt)
  | prologueEnd (c : ClusterAt)
  | vload (m : MvAt)
  | runN (m : MvAt)
  | runT (m : MvAt)
  | accDrain (m : MvAt)
  | accPreload (m : MvAt)
  | runDesc (e : EngineAt)
  | kickedRun (e : EngineAt)
  | descRunComplete (e : EngineAt) (index : Nat)
  -- memory and hub lists
  | requestAccept (h : Fin 8)
  | sorterServe (h : Fin 8) (b : BankAt) (hits : Hits)
  | memoryResponse (h : Fin 8) (index : Nat)
  | fettleRead (h : Fin 8) (hits : Hits)
  | fence (h : Fin 8) (hits : Hits)
  | plateClear (h : Fin 8)
  | tier (h : Fin 8)
  | treeNode (h : Fin 8)
  | nodeElement (h : Fin 8) (index : Nat)
  | backupChunk (h : Fin 8) (index : Nat) (slot : Fin 8) (backup : Bool)
  | update (h : Fin 8)
  | updateElement (h : Fin 8) (index : Nat)
  | normDelivery (h : Fin 8)
  | ladle (h : Fin 8)
  | portSend (p : PortAt)
  | portRecv (p : PortAt)
  | ckptSend (h : Fin 8)
  | digest (m : PrioHead) (h : Fin 8) (b : DigestBody)
  -- steps
  | stepOpen
  | stepDeadline
  | voteSend
  | vote (m : PrioHead) (b : VoteBody)
  | outcome (m : PrioHead) (b : OutcomeBody)
  | relabelCopyDone (h : Fin 8)
  | phase (m : PrioHead) (b : PhaseBody)
  | reshardPhaseDone (rank : BitVec 11) (b : PhaseBody)
  -- faults and restart
  | faultReport (index : Nat)
  | faultNotice (m : PrioHead) (b : NoticeBody)
  | abortDeferTimeout
  | localAbortDone
  | restartPrepared (groups : GroupFails)
  | ready (m : PrioHead) (b : ReadyBody)
  | readyRetryTimeout
  | leaderWindowExpiry
  | startWindowExpiry
  | subst (m : PrioHead) (b : SubstBody)
  | go (m : PrioHead) (b : GoBody)
  | restoreDone
  | done (m : PrioHead) (gen : W64)
  | openJob (m : PrioHead)
  | stall (m : PrioHead) (attempt : BitVec 4)
  -- link
  | laneLock (p : PortAt) (lanes : Byte) (skewNs : Nat)
  | ident (p : PortAt) (b : IdentBody)
  | measure (p : PortAt) (b : MeasureBody)
  | linkupTimeout (p : PortAt)
  | laneLoss (p : PortAt) (lane : Fin 8) (linkLost : Bool)
  | sleep (p : PortAt) (rank : BitVec 11) (farPort : BitVec 4) (epoch : W32)
  | sleepRetryTimer (p : PortAt)
  | dataFlit (p : PortAt) (lane : Fin 8) (f : Flit)
  | idle (p : PortAt) (f : Flit)
  | linkReplay (p : PortAt) (prio : Bool) (s : BitVec 24)
  | replayGapTimeout (p : PortAt) (prio : Bool)
  | linkAckTimeout (p : PortAt) (prio : Bool)
  | credit (p : PortAt) (stream : BitVec 12) (delivered : Nat)
  | creditReportTimer (p : PortAt) (stream : BitVec 12)
  | refuse (p : PortAt) (stream : BitVec 12) (offset : Nat)
  | linkResume (p : PortAt) (stream : BitVec 12) (offset : Nat)
  -- time
  | timeSyncTimer
  | timeSync (m : PrioHead) (t1 : Nat)
  | timeReply (m : PrioHead) (t2 t3 : Nat)
  | sync (m : PtpMsg)
  | followUp (m : PtpMsg)
  | delayResp (m : PtpMsg)
  | announce (m : PtpMsg) (b : AnnounceBody)
  | timeSourceLoss
  | ppsEdge (highFor1us : Bool)
  | ppsLossTimeout
  | ppsOutSecond
  | ppsOutPulseEnd
  -- panel and power
  | d2dParityError (die : Fin 57) (h : Fin 8) (chan : Fin 14) (groups : List Nat)
  | d2dAckTimeout (die : Fin 57) (h : Fin 8) (chan : Fin 14) (group : Nat)
  | spareGroupError (h : Fin 8) (chan : Fin 14) (rx : Bool) (group : Nat)
  | ver (h : Fin 8) (chan : Fin 14) (b : VerBody)
  | budgetInterval (pinW : Nat) (fixedW : Nat)
  | budget (index : Nat)
  | report (index : Nat)
  | quenchCuff (d : RailDie)
  | railControlTick (d : RailDie) (power : W16) (tj : Nat)
  | budgetStaleTimeout (d : RailDie)
  | inputSample (mv : Nat) (ma : Nat)
  | rideThroughExpiry
  | overvoltageExpiry
  | lugOvercurrent (lug : Fin 4)
  | junctionTrip (die : Fin 57) (tj : Nat)
  | quenchHubsDone
  | quenchRecovery
  | thermAlert (low : Bool)
  | pwrOkRise
  | pwrOkFall
  | inputChargeDone
  | rstNAssert
  | rstNRelease (b : Board)
  | selfTestDone (r : SelfTest)
  | memoryTrainDone (r : MemTrain)
  | mouldLoad
  | startupReadySend
  | illegalOpcode (i : Issue)
  | badOpcode (opcode : Byte) (f : Frame)
  | eventRecord (index : Nat)
  deriving DecidableEq, Repr

end Sys2Proof
end

