-- ==== Sys2Proof/Decode.lean ====
section
/-! DEFINITION. The command a word spells by the bits of the table of operations and events. No row of the table gives
bits (every row's field list is empty): the block takes commands and decodes no instruction of its own here. The thread
instruction words of R171 are decoded in Machine/Operands.lean, from a cluster's instruction store. -/
namespace Sys2Proof

/-- No row gives bits, so no word spells a command. -/
def decodeTableWord (_nbits _w : Nat) : Option Instr := none

end Sys2Proof
end

