-- ==== Sys2Proof/Config.lean ====
section
/-! DEFINITION. What the spec leaves to the implementation or to the world, as constants without a body: nothing can be
proved of a value of one, so what holds holds for every value. Each is named in a row of notes/assumptions. -/
namespace Sys2Proof.Config

/-- The hash in a fuse key slot, or none for a blank slot (R485: written at manufacture). -/
opaque keySlotDigest : Nat → Option (BitVec 512)

/-- The serial number in the fuses (R500). -/
opaque serial : W64

/-- The certificate in the fuses, DER, up to 2,048 bytes (R500). -/
opaque certificate : List Byte

/-- The private identity key the crown draws from its true random source (R500); the index is the power-up it is drawn at. -/
opaque identityKey : Nat → Nat

/-- Package stepping and crown die revision of the attestation report (R501). -/
opaque stepping : Byte
opaque crownRevision : Byte

/-- Spare rows of one memory bank (R257: post-package repair). -/
opaque spareRows : Nat

/-- What a (72,64) word with three or more flipped bits decodes to (R237 states one and two): none for an uncorrectable
word, else the exclusive-or the decoder leaves on the data. Applied to the flipped bits. -/
opaque secdedBeyond : List Nat → Option W64

/-- The correction the counter's servo computes, before the clamp of R527: from the offset just measured and the
correction in force (R413, R528 and R530 name the servo and give no formula). -/
opaque servo : Int → Int → Int

/-- Phase steering of one accepted 1PPS edge, from the distance to the whole second (R532). -/
opaque ppsServo : Int → Int → Int

/-- A port's own fixed latency in ns, as R405 subtracts it; by hub and port. -/
opaque phyLatency : Nat → Nat → Nat

/-- The way map of a channel direction (R420): hub, channel, true for the hub's sending direction, pattern digest, mapping and role, to
the weight less 1 of the control way, and the weight less 1 and the sending and receiving engine of each further way. The place
and layout of the map in the mould, and how it names engines, are not given. -/
opaque wayMap : Nat → Nat → Bool → BitVec 512 → Nat → Nat → Fin 255 × List (Fin 255 × Nat × Nat)

/-- Elements an endpoint holds before it gives no more credit (R288, R396), where its item takes them in one by one. -/
opaque endpointRoom : Nat

/-- The destination of a TIER item (R212, R285): the spec gives its common words and no destination. -/
opaque tierDest : W64 → W64 → W64 → Nat

/-- Base of an agent's part of the trace area and the form of a trace record (R462). Agents are numbered as the model
numbers them: tile, kind, list; a record holds its index and the two checks. -/
opaque traceBase : Nat → Nat
opaque traceRecord : Nat → W32 → W32 → List Byte

/-- Feature bits the dies of this package report in VER records (R431, R432), by die kind: no die offers a reserved bit, 6 to 63. -/
opaque features : Nat → BitVec 6

/-- The fabric port feature bits this device offers in IDENT (R383). -/
opaque portFeatures : W64

/-- The lowest fabric port version and the feature bits a pattern requires of a link (R383): by pattern digest. The place in the pattern
is not given. -/
opaque portNeed : BitVec 512 → BitVec 4 × W64

/-- A word of a priority message whose type has fields and no layout (R331, R367, R375, R413): MTYPE, the fields, the word's number. -/
opaque prioWord : Nat → List Nat → Nat → W64

/-- The bytes of a link control record (R385 names the records and lays none out): its kind in the order of R385, and its fields. -/
opaque ctrlBytes : Nat → List Nat → List (BitVec 8)

/-- What a flit on the host link acknowledges (R384, R508), by the flits sent: no command shows the host's flits. -/
opaque yhlAck : Nat → BitVec 24

/-- The bytes of the service journal in flash (R479, R503 give it no layout): whether it is open, and the offset. -/
opaque journalByte : Bool → Nat → BitVec 8

/-- The bytes of a spill run in the spill log (R228 gives a run's length and order, and no layout): run and offset to byte. -/
opaque spillByte : Nat → Nat → BitVec 8

/-- Which cluster's local store an MV item's local addresses name (R282 gives 23-bit local addresses and no cluster): true
for the second cluster of the region. -/
opaque mvSecond : Nat → Bool

/-- A value that the spec leaves open and no operand decides is the n-th of this sequence, n being the state's counter. -/
opaque freeWord : Nat → W64

end Sys2Proof.Config
end

