-- ==== Sys2Proof/Machine/State.lean ====
section
/-! DEFINITION. The state of one Serriryn package as plain data: every register, store, queue, counter, mode and pin
the spec gives it, the queue of waiting commands, and the state after reset. Each field's comment gives its width, its
rule and its reset value. -/
namespace Sys2Proof.Machine

/-! ### Values -/

/-- An exact number as the arithmetic contract handles it (R31, R43, R49): NaN, an infinity, or (-1)^neg x mag x 2^exp,
where a zero keeps its sign. -/
inductive Num where
  | nan
  | inf (neg : Bool)
  | fin (neg : Bool) (mag : Nat) (exp : Int)
  deriving DecidableEq, Repr

/-- A tag of a riser or of a tagged range (R296). -/
inductive Tag where
  | empty
  | prov (g : Nat)
  | final (g : Nat)
  deriving DecidableEq, Repr

/-! ### Moulds (the loaded schedule, read-only while a job runs) -/

/-- An advance word (R272). -/
structure Adv where
  addr : Int := 0
  op : Nat := 0
  wait : Nat := 0
  epoch : Nat := 0
  deriving DecidableEq, Repr

/-- An item header (R271) with its advance word. -/
structure Head where
  kind : Nat := 0
  words : Nat := 1
  wait : Option (Nat × Nat) := none
  sig : Option (Nat × Nat) := none
  fillerOk : Bool := false
  adv : Option Adv := none
  deriving DecidableEq, Repr

/-- A list entry (R271, R274). -/
inductive Entry (α : Type) where
  | item (h : Head) (a : α)
  | rbegin (h : Head) (count : Nat) (fromManifest : Bool) (mb : Nat)
  | rend (h : Head)
  deriving DecidableEq, Repr

/-- An operand of a pour or MV item (R281, R282). -/
structure Operand where
  stride : Nat := 0
  fmt : Nat := 0
  mx : Bool := false
  addr : Nat := 0
  scale : Nat := 0
  deriving DecidableEq, Repr

/-- A pour item (R81, R281). code as R79; n is N or COUNT, eb is EB or FIRST, x and y the extents. -/
structure PourItem where
  code : Nat := 0
  opb : Nat := 0
  adj : Bool := false
  clear : Bool := false
  col : Bool := false
  pieceA : Nat := 0
  pieceB : Nat := 0
  ramp : Nat := 2
  n : Nat := 1
  eb : Nat := 0
  op : Nat := 0
  x : Nat := 1
  y : Nat := 1
  outFmt : Nat := 0xF
  outSr : Bool := false
  outOvf : Bool := false
  a : Operand := {}
  b : Operand := {}
  deriving DecidableEq, Repr

/-- An MV item (R119, R282). -/
structure MvItem where
  code : Nat := 0
  opb : Nat := 0
  adj : Bool := false
  clear : Bool := false
  set : Nat := 0
  ncol : Nat := 1
  seg : Nat := 512
  outFmt : Nat := 0xF
  outSr : Bool := false
  outOvf : Bool := false
  op : Nat := 0
  nrow : Nat := 1
  k : Nat := 1
  ob : Nat := 0
  count : Nat := 1
  a : Operand := {}
  desc : Nat := 0
  deriving DecidableEq, Repr

/-- A launch item (R136, R283). -/
structure LaunchItem where
  entry : Nat := 0
  first : Nat := 0
  count : Nat := 1
  opb : Nat := 0
  epoch : Nat := 0
  riser : Nat := 0xFF
  sels : List Nat := []
  op : Nat := 0
  args : List Nat := []
  deriving DecidableEq, Repr

/-- A stream descriptor (R278). -/
structure Desc where
  srcKind : Nat := 0
  dstKind : Nat := 0
  fmt : Nat := 0
  mx : Bool := false
  tkick : Bool := false
  srcBank : Nat := 0
  dstBank : Nat := 0
  cluster : Nat := 0
  engine : Nat := 0
  srcSel : Nat := 0
  src : Nat := 0
  dstSel : Nat := 0
  dst : Nat := 0
  rowElems : Nat := 1
  rows : Nat := 1
  srcStride : Nat := 0
  dstStride : Nat := 0
  sscSel : Nat := 0
  ssc : Nat := 0
  dscSel : Nat := 0
  dsc : Nat := 0
  ksigTok : Nat := 0
  ksigEn : Bool := false
  kickLaunch : Nat := 0
  kickLidx : Nat := 0
  riser : Nat := 0xFF
  deriving DecidableEq, Repr

/-- A riser table entry (R295): local address, bytes, cluster, prologue descriptor (0x1FFF for none). -/
structure Riser where
  addr : Nat := 0
  size : Nat := 0
  cluster : Nat := 0
  prologue : Nat := 0x1FFF
  deriving DecidableEq, Repr

/-- A tile mould (R276), with the place of each list in the mould area and its words, for the list reads of R269. -/
structure TileMould where
  role : Nat := 0
  ltile : Nat := 0
  cls : Nat := 0
  descs : List Desc := []
  risers : List Riser := []
  pours : List (List (Entry PourItem)) := []
  mvs : List (List (Entry MvItem)) := []
  launches : List (List (Entry LaunchItem)) := []
  streams : List (List (Entry Nat)) := []
  filler : List (Option (Nat × Nat)) := []
  listAt : List (Nat × Nat) := []
  words : List (List Nat) := []
  deriving DecidableEq, Repr

/-- One slot of a TREE_NODE (R335). -/
structure NodeSlot where
  wire : Nat := 0
  leaf : Bool := false
  ltile : Nat := 0x3F
  bkp : Bool := false
  primary : Nat := 0
  backup : Nat := 0xFFF
  deriving DecidableEq, Repr

/-- The words of a TREE_NODE after the common words (R335); node is the literal NODE. -/
structure NodeWords where
  norm : Bool := false
  outWire : Nat := 0
  outHub : Nat := 0
  final : Bool := false
  gaunt : Bool := false
  gcmp : Bool := false
  node : Nat := 0
  shard : Nat := 0
  slots : List NodeSlot := []
  deriving DecidableEq, Repr

/-- The words of an UPDATE after the common words (R315). -/
structure UpdWords where
  recipe : Nat := 0
  m1 : Bool := false
  wcSr : Bool := false
  wcOvf : Bool := false
  decay : Bool := false
  clip : Bool := false
  lsSel : Nat := 0
  digN : Nat := 0
  cols : Nat := 0
  beta1 : W32 := 0
  beta2 : W32 := 0
  eps : W32 := 0
  lambda : W32 := 0
  tau : W32 := 0
  mom : Nat × Nat := (0, 0)
  sec : Nat × Nat := (0, 0)
  col : Nat × Nat := (0, 0)
  wc : Nat × Nat := (0, 0)
  nrm : Nat × Nat := (0, 0)
  lrt : Nat × Nat := (0, 0)
  digSlots : List Nat := []
  deriving DecidableEq, Repr

/-- The words of a hub item after the common words. -/
inductive HubBody where
  | fence (epoch : Nat) (tiles : Nat) (token : Nat)
  | plateClear (slow : Bool) (plate count : Nat)
  | node (w : NodeWords)
  | update (w : UpdWords)
  | ladle (wsel : Nat) (write : Bool) (wbank : Nat) (norm : Bool) (waddr : Nat) (outs : List (Nat × Nat))
  | portSend (dstHub : Nat) (ckpt : Bool) (gaunt : Bool) (win : Nat)
  | portRecv (disp : Nat) (gauntIn : Bool)
  | ckptSend (offset : Nat)
  | tier (raw : W64 × W64 × W64)
  deriving DecidableEq, Repr

/-- A hub item: the common words of R287 and its body. -/
structure HubItem where
  sel : Nat := 0
  addr : Nat := 0
  bankSel : Nat := 0
  elems : Nat := 0
  fmt : Nat := 0
  epIn : Nat := 0xFFF
  epOut : Nat := 0xFFF
  peerSel : Nat := 0
  peer : Nat := 0
  op : Nat := 0
  body : HubBody
  deriving DecidableEq, Repr

/-- A hub mould (R285, R288): the tagged ranges (bank 0 base, bytes), the endpoint words, six lists. -/
structure HubMould where
  tagged : List (Nat × Nat) := []
  endpoints : List W64 := []
  lists : List (List (Entry HubItem)) := []
  deriving DecidableEq, Repr

/-- A class-table entry (R265). -/
structure ClassEntry where
  maxLen : Nat := 0
  mbCount : Nat := 0
  present : Bool := false
  chunked : Bool := false
  chunkCap : Nat := 0
  tokenCap : Nat := 0
  expBase : Nat := 0
  expChunk : Nat := 0
  deriving DecidableEq, Repr

/-- The step mould (R289). -/
structure StepMould where
  coord : Nat := 0
  ckptEvery : Nat := 16
  digestEvery : Nat := 64
  gauntletT : Nat := 16
  deadlineFactor : Nat := 10
  halt : Bool := false
  replayOnRestart : Bool := false
  loadFloor : Nat := 0
  partnerSel : Nat := 0
  softStartMs : Nat := 0
  loss : List (Option (Nat × Nat)) := []
  deriving DecidableEq, Repr

/-- A mould set (R261, R263): what this device needs of it, and every hub mould for the check of R337. -/
structure MouldSet where
  mapping : Nat := 0
  contract : Nat := 1
  features : W64 := 0
  ranks : Nat := 1
  classes : List ClassEntry := []
  areas : List (Nat × Nat) := []
  bindings : List (List W64) := []
  step : StepMould := {}
  tiles : List ((Nat × Nat × Nat) × TileMould) := []
  hubs : List ((Nat × Nat × Nat) × HubMould) := []
  images : List ((Nat × Nat × Nat) × List W64) := []
  deriving DecidableEq, Repr

/-- A range of the PLACEMENT section (R483): KIND 0 STATIC, 1 FETTLE, 2 both. -/
structure PlaceRange where
  kind : Nat := 0
  base : Nat := 0
  size : Nat := 0
  deriving DecidableEq, Repr

/-- A hub record of PLACEMENT (R483). -/
structure HubPlace where
  fl0 : Nat × Nat := (0, 0)
  fl1 : Nat × Nat := (0, 0)
  spill : Nat × Nat := (0, 0)
  partner : Nat × Nat := (0, 0)
  trace : Nat × Nat := (0, 0)
  ranges : List PlaceRange := []
  deriving DecidableEq, Repr

/-- The PLACEMENT section (R483). -/
structure Placement where
  fettlePeriod : Nat := 24
  fettleEn : Bool := true
  slowReq : Nat := 0
  hubs : List HubPlace := []
  deriving DecidableEq, Repr

/-- A route block (R402). -/
structure Route where
  route : List Byte := []
  wire : List W32 := []
  bcastPorts : Nat := 0
  timeSrc : Nat := 0x1E
  timeServe : Nat := 0
  asym : List Int := []
  deriving DecidableEq, Repr

/-- A re-shard entry (R373). -/
structure ReshardEntry where
  round : Nat := 0
  srcRank : Nat := 0
  dstRank : Nat := 0
  src : Nat := 0
  dst : Nat := 0
  bytes : Nat := 0
  deriving DecidableEq, Repr

/-- A re-shard table (R373). -/
structure Reshard where
  fromMap : Nat := 0
  toMap : Nat := 0
  rounds : Nat := 0
  scratchSlot : Nat := 0
  entries : List ReshardEntry := []
  deriving DecidableEq, Repr

/-- A section directory entry of the pattern (R481). -/
structure Section where
  type : Nat := 0
  index : Nat := 0
  offset : Nat := 0
  length : Nat := 0
  digest : Nat := 0
  deriving DecidableEq, Repr

/-- The pattern header as read at order 3 (R480), and its digest (R486). -/
structure Header where
  imageLen : Nat := 0
  build : W64 := 0
  seed : W64 := 0
  defaultSet : Nat := 0
  initSet : Nat := 0xFFFF
  autoStart : Bool := false
  twoFlash : Bool := false
  contract : Nat := 1
  format : Nat := 1
  keySlot : Nat := 0
  sections : List Section := []
  digest : BitVec 512 := 0
  deriving DecidableEq, Repr

/-- The TIME section (R529). -/
structure TimeSection where
  domain : Nat := 0
  udp : Bool := false
  ppsMode : Nat := 0
  asym : Int := 0
  mac : Nat := 0
  ipv4 : W32 := 0
  prefixLen : Nat := 0
  deriving DecidableEq, Repr

/-- An execution of a list item that the list has moved past and that is not done: its position, its execution count (R272), and in a
pour list its pour and its ordinal (R113). -/
structure Inst where
  pos : Nat := 0
  i : Nat := 0
  pour : Nat := 0
  ord : Nat := 0
  deriving DecidableEq, Repr

/-- Where a mould list stands in the step (R271 to R277): position of the first entry not done since the last repeat marker, later
entries already done (paths of one array overlap, R83), executions from before that marker that are not done, in order,
execution counts by position, open repeats (position, executions left), the list words read ahead from the mould area (R269), and
whether a fault has stopped the list (R445). -/
structure ListRun where
  pos : Nat := 0
  ahead : List Nat := []
  pend : List Inst := []
  counts : Tbl Nat := []
  stack : List (Nat × Nat) := []
  fetched : Nat := 0
  stopped : Bool := false
  deriving DecidableEq, Repr

/-! ### Tiles -/

/-- One thread context (R132). stopped is set by a trap (R167): the context neither runs nor has halted. launch names its launch, 0 for
none. pend lists the register codes that await a memory result (R141), got the lanes of gathers that have come (register, lane, and
the element, none where uncorrectable; R176); outstanding counts its requests, whichever launch issued them (R144), writes the
stores of its launch not yet accepted (R151). -/
structure Ctx where
  running : Bool := false
  stopped : Bool := false
  launch : Nat := 0
  lidx : Nat := 0
  op : W32 := 0
  epoch : Nat := 0
  pc : BitVec 14 := 0
  v : Tbl W32 := []
  s : Tbl W64 := []
  p : Tbl W16 := []
  draws : W32 := 0
  seqNo : W32 := 0
  seqEpoch : Option Nat := none
  insns : Nat := 0
  pend : List Nat := []
  got : List (Nat × Nat × Option W32) := []
  outstanding : Nat := 0
  writes : Nat := 0
  barCount : Tbl Nat := []
  barWait : Option Nat := none
  deriving DecidableEq, Repr

/-- A launch in progress (R136 to R139, R165): its number in the cluster, counted from 1 and never used again, list position,
contexts, operation id, epoch, where its completion signals, memory writes of its contexts not yet accepted, and for INVALID and
OVERFLOW the lowest (context, instruction) that raised it. -/
structure LaunchRun where
  ordinal : Nat := 0
  pos : Nat := 0
  first : Nat := 0
  count : Nat := 0
  op : W32 := 0
  epoch : Nat := 0
  sig : Option (Nat × Nat) := none
  writes : Nat := 0
  inv : Option (Nat × Nat) := none
  ovf : Option (Nat × Nat) := none
  deriving DecidableEq, Repr

/-- Where a flag arose: item ordinal, item code, then the order of R110. -/
structure FlagLoc where
  item : Nat := 0
  mode : Nat := 0
  ord : Nat := 0
  a : Nat := 0
  b : Nat := 0
  deriving DecidableEq, Repr

/-- The three sticky flags of a pour, a prologue or an MV item, each with its lowest location (R109, R110). -/
structure FlagSet where
  inv : Option FlagLoc := none
  ovf : Option FlagLoc := none
  nan : Option FlagLoc := none
  deriving DecidableEq, Repr

/-- A pour that has begun and not ended (R109, R112), by its number from 1 on. rd and wr are the local-store bytes its items read and wrote by item
ordinal, kept while digest tracing runs (R462). -/
structure PourRun where
  pour : Nat := 0
  flags : FlagSet := {}
  rd : Tbl (List Byte) := []
  wr : Tbl (List Byte) := []
  deriving DecidableEq, Repr

/-- One matrix array (R68): latches at 128r + c, row parity, site accumulators at 128r + c, edge banks at 256i + j. badRows and badCols
mark the rows and columns that hold a non-finite latch (R86). nr, nc and piece are the extent and piece of the latest LOAD (R78, R81),
latched the number from 1 of its pour; loads and items count the LOADs before the list position and the items since the last of
them (R113, R275); stopped is set by a fault of the array. pourNo, itemCode, ramp and itemNo are what TIL_POUR_STATUS last showed
(R115). -/
structure ArraySt where
  latch : Tbl (BitVec 22) := []
  parity : BitVec 128 := 0
  badRows : BitVec 128 := 0
  badCols : BitVec 128 := 0
  latched : Nat := 0
  site : Tbl W32 := []
  rowEdge : Tbl W32 := []
  colEdge : Tbl W32 := []
  nr : Nat := 128
  nc : Nat := 128
  piece : Nat := 0
  stopped : Bool := false
  loads : Nat := 0
  items : Nat := 0
  pours : List PourRun := []
  prologue : FlagSet := {}
  prologueDone : Bool := false
  sent : Bool × Bool × Bool := (false, false, false)
  pourNo : W32 := 0
  itemCode : BitVec 4 := 0
  ramp : BitVec 2 := 2
  itemNo : BitVec 13 := 0
  filler : Bool := false
  adj : Tbl Nat := []
  deriving DecidableEq, Repr

/-- One MV half-unit (R116): latches at 131072 set + 16384 c + e, parity of segment s of column c at 256 set + 32 c + s,
output accumulators at 2048 c + o, and the weight bytes and scale bytes its intake holds by descriptor. -/
structure MvSt where
  latch : Tbl (BitVec 22) := []
  parity : Tbl Bool := []
  acc : Tbl W32 := []
  intake : Tbl (List Byte × List Byte) := []
  stopped : Bool := false
  runs : Nat := 0
  items : Nat := 0
  sent : Bool × Bool × Bool := (false, false, false)
  runNo : W32 := 0
  itemCode : BitVec 4 := 0
  setNo : Bool := false
  itemNo : BitVec 12 := 0
  adj : Tbl Nat := []
  deriving DecidableEq, Repr

/-- A piece of a descriptor run that lies within one granule of its memory side (R216): source and destination byte
addresses, bytes, how many of its bits belong to elements (R35), and whether it carries scale bytes (R279). -/
structure Chunk where
  src : Nat := 0
  dst : Nat := 0
  len : Nat := 0
  bits : Nat := 0
  scale : Bool := false
  row : Nat := 0
  deriving DecidableEq, Repr

/-- A descriptor run in progress (R280). got holds pieces that came back early (R216); taken says that a hub endpoint's
elements have been taken; data are the bytes moved, kept while digest tracing runs (R462). -/
structure DescRun where
  id : Nat := 0
  desc : Nat := 0
  srcKind : Nat := 0
  dstKind : Nat := 0
  cluster : Nat := 0
  fmt : Nat := 0
  mx : Bool := false
  elems : Nat := 0
  rowElems : Nat := 1
  src : Nat := 0
  dst : Nat := 0
  taken : Bool := false
  chunks : List Chunk := []
  next : Nat := 0
  got : List (Nat × List Byte) := []
  data : List Byte := []
  writes : Nat := 0
  tag : Option Tag := none
  fill : Nat := 0xFF
  sig : Option (Nat × Nat) := none
  deriving DecidableEq, Repr

/-- A kick waiting at its engine (R197, R280): a thread's, or the tile's own of a prologue descriptor (R298). -/
structure Kick where
  pro : Bool := false
  desc : Nat := 0
  offset : Nat := 0
  count : Nat := 0
  deriving DecidableEq, Repr

/-- One stream engine (R216, R280). -/
structure Engine where
  runs : List DescRun := []
  kicks : List Kick := []
  started : Nat := 0
  deriving DecidableEq, Repr

/-- One cluster (R13, R132, R145). launched counts the launches of the step, launchSeq all of them. Error tables list the flipped code bits of a stored word (R237, R242). -/
structure Cluster where
  ctxs : Tbl Ctx := []
  istore : Tbl W64 := []
  istoreErr : Tbl (List Nat) := []
  ls : Tbl Byte := []
  lsErr : Tbl (List Nat) := []
  arr : ArraySt := {}
  launches : List LaunchRun := []
  launched : Nat := 0
  launchSeq : Nat := 0
  thrSent : Bool × Bool := (false, false)
  outstanding : Nat := 0
  deriving DecidableEq, Repr

/-- A TIL_THR_TRAP register (R169). -/
structure TrapReg where
  valid : Bool := false
  cause : Byte := 0
  pc : BitVec 14 := 0
  ctx : Byte := 0
  stepLo : W32 := 0
  deriving DecidableEq, Repr

/-- The power state of a die (R437 to R443). acc is the sum and count of its means since the last BUDGET. -/
structure Cuff where
  budget : W16 := 0
  power : W16 := 0
  acc : Nat × Nat := (0, 0)
  rail : Byte := 0x0F
  tj : Byte := 0
  epoch : W32 := 0
  ceiling : Byte := 0
  floorReq : Bool := false
  hot : Bool := false
  stale : Bool := false
  throttled : Bool := false
  quenched : Bool := false
  deriving DecidableEq, Repr

/-- One tile die, by physical position. -/
structure Tile where
  clusters : Tbl Cluster := []
  mvs : Tbl MvSt := []
  engines : Tbl Engine := []
  lists : Tbl ListRun := []
  tokens : Tbl W32 := []
  risers : Tbl Tag := []
  prologue : List Nat := []
  pourFlags : BitVec 16 := 0
  mvFlags : BitVec 8 := 0
  thrFlags : BitVec 16 := 0
  traps : Tbl TrapReg := []
  dross : Tbl Nat := []
  cuff : Cuff := {}
  revision : Byte := 0
  selfTestOk : Bool := false
  deriving DecidableEq, Repr

/-! ### Requests -/

/-- Where a thread load's data goes (R155, R194). -/
inductive LoadDest where
  | regs (dst n : Nat) (mask : W16)
  | lane (dst lane : Nat) (size : Nat)
  deriving DecidableEq, Repr

/-- Who waits for a request (R217). own is an engine, a port or a hub stream, whose command waits for it. -/
inductive Agent where
  | thread (t k c launch : Nat) (pc : BitVec 14) (dest : Option LoadDest)
  | engine (t e run chunk : Nat) (write : Bool)
  | listRead (t l words : Nat)
  | own
  | none
  deriving DecidableEq, Repr

/-- What a request does: read len bytes, write masked bytes, a scatter-add (format, value, epoch, thread, seq), or the
STATIC rewrite of one sector. -/
inductive ReqKind where
  | read (len : Nat)
  | write (bytes : List (Option Byte))
  | add (int : Bool) (v : W32) (e thread seq : Nat)
  | rewrite
  | fettle
  deriving DecidableEq, Repr

/-- A request (R217). gen is the generation whose tagged range the write covers (R297). -/
structure Req where
  agent : Agent := .none
  kind : ReqKind
  addr : Nat := 0
  gen : Option Nat := none
  deriving DecidableEq, Repr

/-- An accepted request in its slot (R218, R220): the sectors (address / 32) it still waits for, and for a read the bytes of those
that a device read has delivered, none where uncorrectable (R221). -/
structure Slot where
  req : Req
  bank : Nat
  row : Nat
  passes : Nat := 0
  left : List Nat := []
  got : Tbl (Option (List Byte)) := []
  deriving DecidableEq, Repr

/-- A response on its way (R222): data, or none when a sector was uncorrectable; write acceptances have no data. bads are the
uncorrectable sectors of a read. -/
structure Resp where
  req : Req
  data : Option (List Byte) := none
  accepted : Bool := false
  bads : List Nat := []
  deriving DecidableEq, Repr

/-- A pending scatter-add (R225). -/
structure Add where
  addr : Nat := 0
  epoch : Nat := 0
  thread : Nat := 0
  seq : Nat := 0
  int : Bool := false
  v : W32 := 0
  deriving DecidableEq, Repr

/-- A run of the spill log (R228): its place and length in units of 256 KiB, and its adds in order. -/
structure SpillRun where
  start : Nat := 0
  size : Nat := 1
  adds : List Add := []
  deriving DecidableEq, Repr

/-! ### Hubs -/

/-- An element in an endpoint's stream: wire bits, the scale byte of its block where the stream has one, and on the last
element of a tagged stream the stream's tag (R361). -/
structure Elem where
  bits : W64 := 0
  scale : Option Byte := none
  tag : Option Tag := none
  deriving DecidableEq, Repr

/-- A gauntlet entry (R353). -/
structure GEntry where
  elem : Nat := 0
  scale : Byte := 0
  value : W16 := 0
  deriving DecidableEq, Repr

/-- An endpoint (R288): elements delivered and not yet taken, how many were delivered in the step, the entries of its gauntlet
sub-streams, each with the count of elements delivered before its stream, the place below which every entry has come (R355), and the
peer rank of a fabric stream. -/
structure Endpoint where
  data : List Elem := []
  count : Nat := 0
  gaunt : List (Nat × GEntry) := []
  known : Nat := 0
  src : Option Nat := none
  deriving DecidableEq, Repr

/-- One backed slot's chunk at a node (R348, R349): chunk number, the copy in use, whether the other copy was compared. -/
structure ChunkSt where
  slot : Nat := 0
  chunk : Nat := 0
  used : List Elem := []
  fromBackup : Bool := false
  other : Bool := false
  deriving DecidableEq, Repr

/-- An element a node has summed and not yet rounded (R340, R354 to R356): the sum on both paths, the cause and slot of an origin
condition, and the gauntlet entries missing or surplus (slot, cause, element, value). -/
structure BlockElem where
  main : Num
  second : Num
  origin : Option (Nat × Nat) := none
  entries : List (Nat × Nat × Nat × Nat) := []
  deriving DecidableEq, Repr

/-- A TREE_NODE in progress (R340, R350): its position and execution, words and outputs, the next element, the sums of the S16 block
being built on both paths, the main-path bits it has sent (R358), the chunks of backed slots (R348), how many chunks of each copy
have come (slot, copy, count), and what it has already reported; stopped by a fault, or done. A done node stays until the step ends,
for its late copies (R349). -/
structure NodeRun where
  pos : Nat := 0
  i : Nat := 0
  op : W32 := 0
  node : W16 := 0
  elems : Nat := 0
  w : NodeWords := {}
  epOut : Nat := 0xFFF
  next : Nat := 0
  block : List BlockElem := []
  outs : List W64 := []
  chunks : List ChunkSt := []
  chunkDone : List (Nat × Nat × Nat) := []
  invalid : Bool := false
  overflow : Bool := false
  origin : Bool := false
  stopped : Bool := false
  done : Bool := false
  sig : Option (Nat × Nat) := none
  deriving DecidableEq, Repr

/-- An UPDATE in progress (R319 to R327, R330): its position and words with their addresses resolved, the next element, the
values fixed at its start, and its place among the items started in the step. -/
structure UpdRun where
  pos : Nat := 0
  w : UpdWords := {}
  elems : Nat := 0
  fmt : Nat := 0
  epIn : Nat := 0xFFF
  epOut : Nat := 0xFFF
  op : W32 := 0
  masters : Nat := 0
  mom : Nat := 0
  sec : Nat := 0
  col : Nat := 0
  wc : Nat := 0
  nrm : Nat := 0
  rebuild : Bool := false
  next : Nat := 0
  rho : W32 := 0
  clipF : W32 := 0
  eta : W32 := 0
  b1c : W32 := 0
  b2c : W32 := 0
  invR : W32 := 0
  invC : W32 := 0
  kappa : W32 := 0
  rowAcc : W32 := 0
  colAcc : Tbl W32 := []
  q : W64 := 0
  nonfinite : Bool := false
  overflow : Bool := false
  digest : W64 := 0
  ord : Nat := 0
  stopped : Bool := false
  sig : Option (Nat × Nat) := none
  deriving DecidableEq, Repr

/-- A partner checkpoint slot (R215, R456): 0 EMPTY, 1 WRITING, 2 COMPLETE; the generation, the ranges written, and those among them
whose streams ended well. -/
structure CkptSlot where
  state : Nat := 0
  gen : Nat := 0
  written : List (Nat × Nat) := []
  sealed : List (Nat × Nat) := []
  deriving DecidableEq, Repr

/-- A map-out entry (R260). -/
structure MapEntry where
  state : Nat := 0
  slow : Bool := false
  reason : Nat := 0
  sector : Nat := 0
  deriving DecidableEq, Repr

/-- A way of a direction (R420, R421): its weight, the engines it joins (none for the control way), and its groups by channel. -/
structure Way where
  weight : Nat := 1
  ends : Option (Nat × Nat) := none
  groups : List (Nat × Nat) := []
  deriving DecidableEq, Repr

/-- One direction of a D2D channel (R419 to R428): groups marked out, groups recorded once or twice, and its ways. -/
structure ChanDir where
  out : List Nat := []
  once : List Nat := []
  ways : List Way := []
  deriving DecidableEq, Repr

/-- One D2D channel of a hub (R416, R441). verSent is the hub's own VER record and the group that carried it (R431). -/
structure Chan where
  tx : ChanDir := {}
  rx : ChanDir := {}
  verSent : Option (Nat × VerBody) := none
  version : Byte := 0
  features : W64 := 0
  parityGroup : Byte := 0xFF
  fault : Bool := false
  state : Nat := 4
  deriving DecidableEq, Repr

/-- A sent flit that is not both acknowledged and delivered (R389, R397); idx is its place in its stream, slot that of its body in the
far-link buffer. -/
structure TxFlit where
  lane : Nat := 0
  flit : Flit
  idx : Nat := 0
  slot : Nat := 0
  acked : Bool := false
  deriving DecidableEq, Repr

/-- The sending side of one class of a link (R389 to R391). replays counts the replays of number lastS since an acknowledgement. -/
structure TxClass where
  next : BitVec 24 := 0
  acked : BitVec 24 := 0
  held : List TxFlit := []
  replays : Nat := 0
  lastS : BitVec 24 := 0
  deriving DecidableEq, Repr

/-- The receiving side of one class of a link (R389, R390): the number expected, flits that came early with their lanes, and
whether everything but that number is discarded. -/
structure RxClass where
  expected : BitVec 24 := 0
  early : List (Nat × Flit) := []
  discard : Bool := false
  deriving DecidableEq, Repr

/-- A stream being sent on a link (R393, R395, R396): its kind and step (a relayed one shows kind 0), its flit bodies and their lanes,
whether its last flit is there, how many were sent and delivered, its window, and whether it is refused. -/
structure TxStream where
  id : BitVec 12 := 0
  kind : Nat := 0
  step : Nat := 0
  bodies : List (List Byte) := []
  lanes : List Nat := []
  closed : Bool := true
  sent : Nat := 0
  delivered : Nat := 0
  win : Nat := 1
  stopped : Bool := false
  deriving DecidableEq, Repr

/-- What a stream being received is bound to (R394, R400): not yet known, this device, a relay to an outgoing stream of a port,
or nothing any more. -/
inductive Binding where
  | none
  | here
  | relay (port : Nat) (id : BitVec 12)
  | dropped
  deriving DecidableEq, Repr

/-- A stream being received on a link: its header, the bodies of flits that came and are not delivered, its delivered bytes where it is
for this device, the elements or entries passed to its endpoint, how many bytes came, flits delivered, the count last reported, the
flit from which it is refused, what it is bound to, and whether it is complete. -/
structure RxStream where
  id : BitVec 12 := 0
  head : List Byte := []
  held : List (List Byte) := []
  bytes : List Byte := []
  passed : Nat := 0
  seen : Nat := 0
  delivered : Nat := 0
  reported : Nat := 0
  refusing : Option Nat := none
  bound : Binding := .none
  complete : Bool := false
  deriving DecidableEq, Repr

/-- A link control record sent (R385). -/
inductive Ctrl where
  | ident (b : IdentBody)
  | measure
  | measureEcho (turnaround : Nat)
  | replay (prio : Bool) (s : BitVec 24)
  | credit (stream : BitVec 12) (delivered : Nat)
  | refuse (stream : BitVec 12) (offset : Nat)
  | resume (stream : BitVec 12) (offset : Nat)
  | sleep (rank : BitVec 11) (port : BitVec 4) (epoch : W32)
  deriving DecidableEq, Repr

/-- One fabric port (R379, R415). order is the link-up order completed (R381); line, ctrl and prioOut are what it has sent, as flits, as
control records and as messages. waiting are the messages that wait for a far end that sleeps (R553) or for room (R389). prioEarly are
messages whose flits came early, prioOpen is the flit whose messages are being taken. stomp names the lane, number and stream of a
stomped flit (R400). -/
structure Port where
  up : Bool := false
  failed : Bool := false
  measured : Bool := false
  order : Nat := 0
  farRank : BitVec 11 := 0
  farPort : BitVec 4 := 0
  version : BitVec 4 := 0
  features : W64 := 0
  lanes : Byte := 0
  skew : Byte := 0
  flight : Nat := 0
  samples : List Int := []
  farAsleep : Bool := false
  timedOut : Bool := false
  data : TxClass := {}
  prio : TxClass := {}
  rxData : RxClass := {}
  rxPrio : RxClass := {}
  prioAckDue : Bool := false
  tx : List TxStream := []
  rx : List RxStream := []
  nextId : BitVec 12 := 0
  line : List (Nat × Flit) := []
  ctrl : List Ctrl := []
  stomp : Option (Nat × BitVec 24 × BitVec 12) := none
  prioOut : List (PrioHead × PrioBody) := []
  prioEarly : List (PrioHead × PrioBody × Fin 8) := []
  prioOpen : Option (BitVec 24) := none
  waiting : List (PrioHead × PrioBody) := []
  deriving DecidableEq, Repr

/-- One hub. -/
structure Hub where
  hbmStacks : Nat := 0
  slowSize : Nat := 0
  tileMap : Tbl (Bool × Bool × Nat) := []
  ingress : Tbl (List Req) := []
  passed : Tbl Nat := []
  slots : List Slot := []
  openRow : Tbl Nat := []
  resps : List Resp := []
  validHbm : Tbl Bool := []
  validSlow : Tbl Bool := []
  sramErr : Tbl (List Nat) := []
  adds : List Add := []
  spill : List SpillRun := []
  fences : Nat := 0
  lists : Tbl ListRun := []
  tokens : Tbl W32 := []
  eps : Tbl Endpoint := []
  nodes : List NodeRun := []
  upds : List UpdRun := []
  updStarted : Nat := 0
  updDone : List (Nat × W64 × Nat) := []
  late : Nat := 0
  gauntBad : Bool := false
  backupBad : Bool := false
  origin : Bool := false
  nonfinite : Bool := false
  n2 : Option W64 := none
  normQ : List W64 := []
  ownDig : List (Nat × W32 × W64) := []
  peerDig : List (Nat × Nat × W32 × W64) := []
  needDig : List (Nat × W32) := []
  tags : Tbl Tag := []
  covered : Tbl (List (Nat × Nat)) := []
  badSeen : List Nat := []
  slot0 : CkptSlot := {}
  slot1 : CkptSlot := {}
  ckptBad : Bool := false
  restoring : Bool := false
  ckpt : List (Nat × Nat × Nat) := []
  pcTier : Bool := false
  pcPlate : BitVec 26 := 0
  pcCount : BitVec 27 := 0
  pcBusy : Bool := false
  pcRefused : Bool := false
  fetPeriod : Byte := 0x18
  fetEnable : Bool := true
  fetPasses : W32 := 0
  fetListFull : Bool := false
  fetCursor : Nat := 0
  mapout : List MapEntry := []
  repaired : Tbl Nat := []
  updNonfinite : Bool := false
  updDigestBad : Bool := false
  relabel : Bool := false
  ports : Tbl Port := []
  chans : Tbl Chan := []
  dross : Tbl Nat := []
  cuff : Cuff := {}
  revision : Byte := 0
  selfTestOk : Bool := false
  traceCount : Tbl Nat := []
  deriving DecidableEq, Repr

/-! ### Crown -/

/-- The job of CRN_JOB_STATUS.JOB (R535). -/
inductive Job where
  | none | active | suspended | ended
  deriving DecidableEq, Repr

/-- CRN_RESTART_STATUS.STATE (R445). -/
inductive RState where
  | idle | running | aborting | restarting | stalled
  deriving DecidableEq, Repr

/-- Counter states of CRN_TIME_STATUS.STATE (R535). -/
inductive TState where
  | unset | free | acquiring | locked | holdover
  deriving DecidableEq, Repr

/-- PPS states (R535). -/
inductive PState where
  | unused | locked | missing
  deriving DecidableEq, Repr

/-- The input stage (R475, R538, R545). -/
inductive Rails where
  | off | charging | up
  deriving DecidableEq, Repr

/-- A device frame (R513). -/
structure DevFrame where
  type : Byte
  tag : Byte := 0
  status : Byte := 0
  flags : Byte := 0
  handle : W32 := 0
  param0 : W64 := 0
  param1 : W64 := 0
  payload : List Byte := []
  deriving DecidableEq, Repr

/-- A fault report on its way to the crown (R445, R572): the die, the code, the record and the event type of its own. -/
structure Report where
  die : Nat := 56
  code : Nat := 0
  body : BitVec 298 := 0
  type : Option Nat := none
  deriving DecidableEq, Repr

/-- A non-fault record on its way to the crown (R469). -/
structure Record where
  type : Nat := 0
  die : Nat := 56
  body : BitVec 298 := 0
  deriving DecidableEq, Repr

/-- An event log entry (R472). -/
structure LogEntry where
  seq : W64 := 0
  time : W64 := 0
  gen : W64 := 0
  type : Byte := 0
  die : BitVec 6 := 0
  code : Byte := 0
  body : BitVec 298 := 0
  read : Bool := false
  deriving DecidableEq, Repr

/-- A batch manifest (R522). -/
structure Manifest where
  cls : Nat := 0
  mbs : List Nat := []
  params : List W64 := []
  segs : List (Nat × W32 × Nat) := []
  raw : List Byte := []
  deriving DecidableEq, Repr

/-- The feed of one step: its manifest and, per segment, the byte ranges received and whether it is complete (R523). -/
structure Feed where
  manifest : Option Manifest := none
  got : Tbl (List (Nat × Nat)) := []
  complete : Tbl Bool := []
  deriving DecidableEq, Repr

/-- The step in progress (R18, R302, R465, R493). -/
structure OpenStep where
  step : Nat := 0
  cls : Nat := 0
  chunks : Nat := 0
  startNs : W64 := 0
  mapping : Nat := 0
  replay : Bool := false
  init : Bool := false
  testRamp : Bool := false
  deriving DecidableEq, Repr

/-- A vote held by the coordinator (R368). -/
structure VoteIn where
  nonfinite : Bool := false
  cls : Nat := 0
  deriving DecidableEq, Repr

/-- A long operation in progress (R516): its handle and what it is. -/
inductive LongOp where
  | job
  | switch (after mapping : Nat)
  | exporting (source : Nat) (left : List (Nat × Nat × Nat)) (paused : Bool)
  | importing (gen : Nat) (held : List Byte) (written : List (Nat × Nat × Nat)) (twice : Bool)
  | replay (step : Nat) (testRamp : Bool)
  | mitten
  | wake
  deriving DecidableEq, Repr

/-- The host link (R507 to R518, R535, R575). recent holds the eight tags last taken with their ACKs; line is what the lanes have sent, next
the number of the next DATA flit. -/
structure Link where
  up : Bool := false
  downed : Bool := false
  version : Byte := 0
  flight : W16 := 0
  lanes : BitVec 4 := 0
  expected : Byte := 0
  recent : List (Byte × DevFrame) := []
  outstanding : Nat := 0
  acks : List DevFrame := []
  sent : List DevFrame := []
  queue : List DevFrame := []
  next : BitVec 24 := 0
  line : List (Nat × Flit) := []
  deriving DecidableEq, Repr

/-- The time counter and its sources (R412, R413, R527 to R533). ticks counts REF_CLK_100 cycles, counter 2^-16 ns. good counts
offsets in a row within 100 ns, corrLog the corrections with the tick they began at, newest first. syncT2 is a two-step Sync that
awaits its Follow_Up, pair the stamps t1 and t2 of the last one, delayT3 the Delay_Req under way, lastT1 the TIME_SYNC
under way, delayReqs the Delay_Req messages sent. -/
structure Time where
  ticks : Nat := 0
  counter : Nat := 0
  corr : Int := 0
  state : TState := .unset
  src : Nat := 0
  offset : Int := 0
  sub : W16 := 0
  stepped : Bool := false
  ppsLost : Bool := false
  sourceLost : Bool := false
  pps : PState := .unused
  ppsLast : Option Nat := none
  ppsOut : Bool := false
  good : Nat := 0
  corrLog : List (Nat × Int) := []
  syncT2 : Option (W16 × Nat) := none
  pair : Option (Nat × Nat) := none
  delayT3 : Option (W16 × Nat) := none
  lastT1 : Option Nat := none
  master : Option (W64 × AnnounceBody) := none
  lastSecond : Nat := 0
  delayReqs : Nat := 0
  deriving DecidableEq, Repr

/-- Input, budget and supervision (R536 to R558). Voltages in mV, currents in mA. -/
structure Power where
  rails : Rails := .off
  samples : List (Nat × Nat) := []
  vin : Nat := 0
  iin : Nat := 0
  below40 : Bool := false
  below38 : Bool := false
  below36 : Bool := false
  below32 : Bool := false
  above62 : Bool := false
  ride : Bool := false
  quenching : Bool := false
  quenched : Bool := false
  entering : Bool := false
  mitten : Bool := false
  waking : Bool := false
  soft : Option (Nat × Nat × Nat) := none
  pin : Nat := 0
  ceiling : Nat := 0
  floorTiles : Nat := 0
  floorOn : Bool := false
  pSum : Nat × Nat := (0, 0)
  pMean : Nat := 0
  epoch : W32 := 0
  reports : Tbl (Nat × Bool × Nat) := []
  cuffs : List (Nat × W32 × W16 × Byte × Bool) := []
  cuffReports : List (Nat × W32 × W16 × Byte × Byte × BitVec 3) := []
  quenchCuffs : List (Nat × W32) := []
  deriving DecidableEq, Repr

/-- Start-up (R475 to R506) and what it read. -/
structure Startup where
  done : List Nat := []
  refusal : Byte := 0
  service : Bool := false
  spare : Bool := false
  imported : Bool := false
  forced : Bool := false
  site : BitVec 3 := 0
  rank : BitVec 11 := 0
  keySlot : BitVec 2 := 0
  peerRank : BitVec 11 := 0
  peerCode : Byte := 0
  readySent : Bool := false
  started : Bool := false
  hostStart : Bool := false
  header : Option Header := none
  board : Board := {}
  initDone : Bool := false
  deriving DecidableEq, Repr

/-- A READY held by a leader or by the start-up coordinator (R451, R494). -/
structure ReadyIn where
  gen : Nat := 0
  flags : BitVec 9 := 0
  slot0 : Nat := 0
  slot1 : Nat := 0
  pdigest : BitVec 48 := 0
  refusal : Byte := 0
  deriving DecidableEq, Repr

/-- The crown's job, step, commit and restart state. `held` is the voted step that an abort has closed and not settled (R370). -/
structure Crown where
  job : Job := .none
  rstate : RState := .idle
  gen : Nat := 0
  openStep : Option OpenStep := none
  deadline : Bool := false
  voted : Option Bool := none
  held : Option OpenStep := none
  deferring : Bool := false
  relabel : Bool := false
  priorIntact : Bool := false
  genDigest : W64 := 0
  -- coordinator
  votes : Tbl VoteIn := []
  decided : Option (Nat × Bool × Nat) := none
  cancelPending : Bool := false
  -- restart
  epoch : W32 := 0
  attempt : Nat := 0
  mode : Nat := 0
  target : Nat := 0
  lastCode : Byte := 0
  leader : BitVec 11 := 0
  window : W16 := 0x3C
  order : Nat := 0
  triedRanks : List Nat := []
  readys : Tbl ReadyIn := []
  leading : Bool := false
  leadEpoch : W32 := 0
  dones : List Nat := []
  expectDone : List Nat := []
  substIn : List (Nat × Nat × Nat) := []
  rankNow : BitVec 11 := 0
  commitHeld : Bool := false
  startWindow : Bool := false
  linkDown : Bool := false
  rebuild : Bool := false
  attempts : Nat := 0
  importDue : Bool := false
  -- feed
  feeds : Tbl Feed := []
  keptFeed : Option (Nat × Feed) := none
  rewound : Bool := false
  crcBad : Bool := false
  -- mapping and re-shard
  mapping : Nat := 0
  switch : Option (Nat × Nat × Nat) := none
  suspend : Option (Nat × Bool) := none
  reshard : Option (Nat × Nat × Bool) := none
  reshardIn : List Nat := []
  phaseDone : List Nat := []
  phaseHeld : Bool := false
  -- operations
  ops : Tbl LongOp := []
  nextHandle : Nat := 2
  replayFeed : Bool := false
  -- records and log
  reports : List Report := []
  records : List Record := []
  signals : List (Nat × Nat × Nat) := []
  seq : W64 := 0
  lastTime : W64 := 0
  log : Tbl LogEntry := []
  head : BitVec 12 := 0
  overwritten : W32 := 0
  stepLast : Tbl W64 := []
  lossVals : Tbl W32 := []
  batchDigest : W64 := 0
  dross : Tbl Nat := []
  deriving DecidableEq, Repr

/-- What a mould load leaves (R268, R306, R307): the sets of the pattern, the other sections, and the routes between hubs that differ
from the plain ones (8 x from + to, the hubs passed; R429). -/
structure Loaded where
  sets : List MouldSet := []
  placement : Placement := {}
  route : Route := {}
  routeRanks : Nat := 0
  spareRoutes : List (Nat × Nat) := []
  twins : List Nat := []
  reshards : List Reshard := []
  time : Option TimeSection := none
  portEq : List W64 := []
  hubRoutes : Tbl (List Nat) := []
  loaded : Bool := false
  deriving DecidableEq, Repr

/-- The machine. `pending` is the queue of waiting commands, first in, first out. `mem` is HBM and slow tier by physical
address, in canonical form: an unlisted byte is 0 (R232, R233). `memErr` holds the symbols of a stored sector that no
longer match its code (by sector address), `poison` the sectors written with poison check bytes (R257). -/
structure State where
  pending : List Instr := []
  crown : Crown := {}
  link : Link := {}
  time : Time := {}
  power : Power := {}
  startup : Startup := {}
  loaded : Loaded := {}
  hubs : Tbl Hub := []
  tiles : Tbl Tile := []
  mem : List Host.Cell := []
  memErr : Tbl (List (Nat × Byte)) := []
  poison : Tbl Bool := []
  flash : Tbl Byte := []
  flash0 : Bool := true
  flash1 : Bool := false
  journal : Bool := false
  keySlots : List (Option (BitVec 512)) := []
  revoked : List Bool := []
  idKey : Option Nat := none
  powerUps : Nat := 0
  rstN : Bool := false
  pwrOk : Bool := false
  thermLow : Bool := false
  free : Nat := 0
  deriving DecidableEq, Repr

/-- Why the block stops with a fault. None of the spec's faults stops it: each is a state change (report, record, abort,
restart), so a fault outcome has no raiser in this model. -/
inductive Fault where
  /-- Never raised. It keeps the type inhabited. Safe: nothing can rest on it. -/
  | unused
  deriving DecidableEq, Repr

/-- Why a command has no meaning. -/
inductive Refusal where
  /-- Raised by the arm of a command that is not modelled yet, by its mnemonic. Safe: the machine stops. -/
  | notModelled (mnemonic : String)
  deriving DecidableEq, Repr

/-- The machine right after power-on reset: PWR_OK and RST_N low (R563 pulls both down), nothing powered, every register
at the reset value its table gives, memory with nothing listed, fuses as manufactured. -/
def State.reset : State :=
  { keySlots := [Config.keySlotDigest 0, Config.keySlotDigest 1, Config.keySlotDigest 2, Config.keySlotDigest 3]
    revoked := [false, false, false, false] }

end Sys2Proof.Machine
end

