-- ==== Sys2Proof/Machine/Table.lean ====
section
/-! DEFINITION. Reading and writing sparse tables. `tput` keeps the canonical form (no entry equals the default),
`tset` stores whatever it is given; both keep the keys strictly rising. -/
namespace Sys2Proof.Machine

/-- The value a table holds for a number; a number that is not listed reads as `d`. -/
def tget {α : Type} (d : α) : Tbl α → Nat → α
  | [], _ => d
  | (j, v) :: t, k => if j = k then v else tget d t k

/-- Whether a number is listed. -/
def thas {α : Type} (t : Tbl α) (k : Nat) : Bool := t.any fun e => e.1 == k

/-- The table without a number. -/
def terase {α : Type} (t : Tbl α) (k : Nat) : Tbl α := t.filter fun e => e.1 != k

/-- Insert before the first larger number. -/
def tins {α : Type} : Tbl α → Nat → α → Tbl α
  | [], k, v => [(k, v)]
  | (j, w) :: t, k, v => if k < j then (k, v) :: (j, w) :: t else (j, w) :: tins t k v

/-- Store a value under a number. -/
def tset {α : Type} (t : Tbl α) (k : Nat) (v : α) : Tbl α := tins (terase t k) k v

/-- Store a value under a number, or drop the number where the value is the default. -/
def tput {α : Type} [DecidableEq α] (d : α) (t : Tbl α) (k : Nat) (v : α) : Tbl α :=
  if v = d then terase t k else tset t k v

/-- Change the value under a number. -/
def tupd {α : Type} (d : α) (t : Tbl α) (k : Nat) (f : α → α) : Tbl α := tset t k (f (tget d t k))

/-- Keys rise strictly and every one is above `lo`. -/
def tsortedFrom {α : Type} : Option Nat → Tbl α → Bool
  | _, [] => true
  | lo, (k, _) :: t => (match lo with | none => true | some l => decide (l < k)) && tsortedFrom (some k) t

/-- The canonical form: keys rise strictly and no listed value is the default. -/
def tcanon {α : Type} [DecidableEq α] (d : α) (t : Tbl α) : Bool :=
  tsortedFrom none t && t.all fun e => decide (e.2 ≠ d)

/-- The element of a list by number, or a default. -/
def lget {α : Type} (d : α) (l : List α) (i : Nat) : α := l.getD i d

/-- Replace the element of a list by number; a number past the end changes nothing. -/
def lset {α : Type} (l : List α) (i : Nat) (v : α) : List α := l.set i v

/-- Remove the element of a list by number. -/
def ldel {α : Type} (l : List α) (i : Nat) : List α := l.eraseIdx i

/-- Remove the first element that meets a test, answering it. -/
def takeFirst {α : Type} (p : α → Bool) : List α → Option (α × List α)
  | [] => none
  | a :: t => if p a then some (a, t) else (takeFirst p t).map fun r => (r.1, a :: r.2)

/-- Replace the first element that meets a test. -/
def replFirst {α : Type} (p : α → Bool) (v : α) : List α → List α
  | [] => []
  | a :: t => if p a then v :: t else a :: replFirst p v t

end Sys2Proof.Machine
end

