-- ==== Sys2Proof/Machine/Bits.lean ====
section
/-! DEFINITION. Bit fields, byte order (R8: little-endian) and sign extension. -/
namespace Sys2Proof.Machine

/-- Bits [hi:lo] of a natural number. -/
def bits (n hi lo : Nat) : Nat := (n >>> lo) % 2 ^ (hi + 1 - lo)

/-- Bit i of a natural number. -/
def bit (n i : Nat) : Bool := (n >>> i) % 2 == 1

/-- One for true. -/
def b2n (b : Bool) : Nat := if b then 1 else 0

/-- Two's complement of a width. -/
def sext (w n : Nat) : Int := let v := n % 2 ^ w; if v < 2 ^ (w - 1) then (v : Int) else (v : Int) - (2 ^ w : Nat)

/-- A signed value wrapped to a width. -/
def wrap (w : Nat) (i : Int) : Nat := (i % ((2 ^ w : Nat) : Int)).toNat

/-- Little-endian bytes of a number. -/
def leBytes : Nat → Nat → List Byte
  | 0, _ => []
  | k + 1, n => BitVec.ofNat 8 n :: leBytes k (n / 256)

/-- The number little-endian bytes spell. -/
def leNat : List Byte → Nat
  | [] => 0
  | b :: t => b.toNat + 256 * leNat t

/-- Big-endian bytes of a number. -/
def beBytes (k n : Nat) : List Byte := (leBytes k n).reverse

/-- The number big-endian bytes spell. -/
def beNat (l : List Byte) : Nat := leNat l.reverse

/-- The 64-bit words of bytes (R271). -/
def leWords : Nat → List Byte → List W64
  | 0, _ => []
  | k + 1, l => BitVec.ofNat 64 (leNat (l.take 8)) :: leWords k (l.drop 8)

/-- Elements of w bits packed from the low end of a number (R35). -/
def unpackBits (w : Nat) : Nat → Nat → List Nat
  | 0, _ => []
  | k + 1, n => n % 2 ^ w :: unpackBits w k (n / 2 ^ w)

/-- The number that packed elements of w bits spell (R35). -/
def packBits (w : Nat) : List Nat → Nat
  | [] => 0
  | e :: t => e % 2 ^ w + 2 ^ w * packBits w t

/-- Ceiling of a quotient. -/
def cdiv (a b : Nat) : Nat := (a + b - 1) / b

/-- The record body that fields (width, value) spell, packed from bit 0 in the order given (R469, R572). -/
def packFields : List (Nat × Nat) → Nat
  | [] => 0
  | (w, v) :: t => v % 2 ^ w + 2 ^ w * packFields t

/-- Exclusive-or of all the bits of a number, over a width. -/
def parityOf : Nat → Nat → Bool
  | 0, _ => false
  | k + 1, n => (n % 2 == 1) ^^ parityOf k (n / 2)

/-- Append an element unless the list holds it. -/
def addOnce {α : Type} [DecidableEq α] (l : List α) (a : α) : List α := if a ∈ l then l else l ++ [a]

/-- Merge a byte range into a list of ranges (start, end). -/
def addRange (l : List (Nat × Nat)) (r : Nat × Nat) : List (Nat × Nat) :=
  let touch := fun (x : Nat × Nat) => decide (x.1 ≤ r.2 ∧ r.1 ≤ x.2)
  let near := l.filter touch
  let m := near.foldl (fun a x => (min a.1 x.1, max a.2 x.2)) r
  (l.filter fun x => !touch x) ++ [m]

/-- Whether ranges cover a byte range. -/
def coversRange (l : List (Nat × Nat)) (lo hi : Nat) : Bool := l.any fun x => decide (x.1 ≤ lo ∧ hi ≤ x.2)

/-- Whether two byte ranges (start, length) overlap. -/
def overlaps (a la b lb : Nat) : Bool := decide (a < b + lb ∧ b < a + la)

end Sys2Proof.Machine
end

