-- ==== Sys2Proof/Machine/Crc.lean ====
section
/-! DEFINITION. CRC-32C (R386) and CRC-64/ECMA-182 (R330, R403, R463), bit by bit. -/
namespace Sys2Proof.Machine

/-- One reflected step of CRC-32C: polynomial 0x1EDC6F41 reflected. -/
def crc32Step : Nat → W32 → W32
  | 0, c => c
  | k + 1, c => crc32Step k (if c.getLsbD 0 then (c >>> 1) ^^^ 0x82F63B78 else c >>> 1)

/-- CRC-32C of bytes (R386): initial value and final exclusive-or 0xFFFF_FFFF. -/
def crc32c (l : List Byte) : W32 :=
  (l.foldl (fun c b => crc32Step 8 (c ^^^ b.setWidth 32)) 0xFFFFFFFF) ^^^ 0xFFFFFFFF

/-- One step of CRC-64/ECMA-182, most significant bit first. -/
def crc64Step : Nat → W64 → W64
  | 0, c => c
  | k + 1, c => crc64Step k (if c.getLsbD 63 then (c <<< 1) ^^^ 0x42F0E1EBA9EA3693 else c <<< 1)

/-- Continue a CRC-64/ECMA-182 over more bytes. -/
def crc64From (c : W64) (l : List Byte) : W64 :=
  l.foldl (fun c b => crc64Step 8 (c ^^^ BitVec.ofNat 64 (b.toNat * 2 ^ 56))) c

/-- CRC-64/ECMA-182 of bytes: initial value and final exclusive-or 0. -/
def crc64 (l : List Byte) : W64 := crc64From 0 l

end Sys2Proof.Machine
end

