-- ==== Sys2Proof/Machine/Numbers.lean ====
section
/-! DEFINITION. Numbers of the arithmetic contract: element formats (R30 to R35, R173), exact arithmetic, rounding
(R49 to R54, R57), MX blocks (R36 to R38, R55, R56, R573), S16 blocks (R39 to R41), ingots, products and tree sums
(R42 to R48), accumulation (R51), FP32 split (R59, R60) and lane generators (R61, R62). -/
namespace Sys2Proof.Machine

/-- The format codes of R173, in code order. -/
inductive Fmt where
  | f32 | bf16 | f16 | i32 | i8 | e4m3 | e5m2 | e2m3 | e3m2 | e2m1 | f64
  deriving DecidableEq, Repr

/-- The format of a code; reserved codes have none (R173). -/
def Fmt.ofCode : Nat → Option Fmt
  | 0 => some .f32
  | 1 => some .bf16
  | 2 => some .f16
  | 3 => some .i32
  | 4 => some .i8
  | 5 => some .e4m3
  | 6 => some .e5m2
  | 7 => some .e2m3
  | 8 => some .e3m2
  | 9 => some .e2m1
  | 10 => some .f64
  | _ => none

/-- Bits of an element (R30). -/
def Fmt.width : Fmt → Nat
  | .f32 => 32
  | .bf16 => 16
  | .f16 => 16
  | .i32 => 32
  | .i8 => 8
  | .e4m3 => 8
  | .e5m2 => 8
  | .e2m3 => 6
  | .e3m2 => 6
  | .e2m1 => 4
  | .f64 => 64

/-- Parameters of a floating-point format (R32): exponent bits, fraction bits, bias, exponent and fraction of the largest
finite value. The integer formats read as zeros here. -/
structure FpSpec where
  eb : Nat := 0
  m : Nat := 0
  bias : Int := 0
  emax : Int := 0
  fmax : Nat := 0
  deriving DecidableEq, Repr

/-- R32. -/
def Fmt.spec : Fmt → FpSpec
  | .f32 => { eb := 8, m := 23, bias := 127, emax := 127, fmax := 0x7FFFFF }
  | .bf16 => { eb := 8, m := 7, bias := 127, emax := 127, fmax := 0x7F }
  | .f16 => { eb := 5, m := 10, bias := 15, emax := 15, fmax := 0x3FF }
  | .e4m3 => { eb := 4, m := 3, bias := 7, emax := 8, fmax := 6 }
  | .e5m2 => { eb := 5, m := 2, bias := 15, emax := 15, fmax := 3 }
  | .e2m3 => { eb := 2, m := 3, bias := 1, emax := 2, fmax := 7 }
  | .e3m2 => { eb := 3, m := 2, bias := 3, emax := 4, fmax := 3 }
  | .e2m1 => { eb := 2, m := 1, bias := 1, emax := 2, fmax := 1 }
  | .f64 => { eb := 11, m := 52, bias := 1023, emax := 1023, fmax := 0xFFFFFFFFFFFFF }
  | .i32 => {}
  | .i8 => {}

/-- Exponent of the smallest normal value (R49: fmt.emin). -/
def FpSpec.emin (p : FpSpec) : Int := 1 - p.bias

/-- Formats with infinities: exponent all ones with fraction 0 (R32). -/
def Fmt.hasInf : Fmt → Bool
  | .f32 => true
  | .bf16 => true
  | .f16 => true
  | .e5m2 => true
  | .f64 => true
  | .i32 => false
  | .i8 => false
  | .e4m3 => false
  | .e2m3 => false
  | .e3m2 => false
  | .e2m1 => false

/-- The element formats of an MX block (R30). -/
def Fmt.isMx : Fmt → Bool
  | .e4m3 => true
  | .e5m2 => true
  | .e2m3 => true
  | .e3m2 => true
  | .e2m1 => true
  | .f32 => false
  | .bf16 => false
  | .f16 => false
  | .i32 => false
  | .i8 => false
  | .f64 => false

/-- The two integer formats. -/
def Fmt.isInt : Fmt → Bool
  | .i32 => true
  | .i8 => true
  | .f32 => false
  | .bf16 => false
  | .f16 => false
  | .e4m3 => false
  | .e5m2 => false
  | .e2m3 => false
  | .e3m2 => false
  | .e2m1 => false
  | .f64 => false

/-- +0. -/
def Num.zero : Num := .fin false 0 0

/-- An integer. -/
def Num.ofInt (i : Int) : Num := .fin (decide (i < 0)) i.natAbs 0

/-- Two's complement magnitude of an integer format, as a value (R34, R185). -/
def decodeInt (w n : Nat) : Num := Num.ofInt (sext w n)

/-- Decode a code of a floating-point format (R31, R32); bits above the format are ignored (R174). -/
def decodeFp (p : FpSpec) (special : Bool) (n : Nat) : Num :=
  let s := bit n (p.eb + p.m)
  let e := (n >>> p.m) % 2 ^ p.eb
  let f := n % 2 ^ p.m
  if special && e == 2 ^ p.eb - 1 then (if f = 0 then .inf s else .nan)
  else if e = 0 then .fin s f (1 - p.bias - p.m)
  else .fin s (2 ^ p.m + f) ((e : Int) - p.bias - p.m)

/-- Decode an element to its exact value. -/
def decode (f : Fmt) (n : Nat) : Num :=
  if f.isInt then decodeInt f.width n
  else if f = .e4m3 && n % 128 == 127 then .nan
  else decodeFp f.spec f.hasInf n

/-- floor of mag x 2^e. -/
def scaleFloor (mag : Nat) (e : Int) : Nat :=
  if 0 ≤ e then mag <<< e.toNat else mag >>> (-e).toNat

/-- floor(log2) of a finite non-zero value. -/
def floorLog2 (mag : Nat) (e : Int) : Int := (Nat.log2 mag : Int) + e

/-- A rounding: to nearest even, or stochastic with a 16-bit slice (R49, R52). -/
inductive Rnd where
  | rne
  | sr (r : Nat)
  deriving DecidableEq, Repr

/-- Round mag x 2^e to an integer number of units of 2^lp (R49, R52). -/
def roundUnits (r : Rnd) (mag : Nat) (e lp : Int) : Nat :=
  match r with
  | .sr s => (scaleFloor mag (e - lp + 16) + s) >>> 16
  | .rne =>
    if lp ≤ e then mag <<< (e - lp).toNat
    else
      let k := (lp - e).toNat
      let q := mag >>> k
      let rem := mag - (q <<< k)
      let half := 1 <<< (k - 1)
      if rem < half then q else if half < rem then q + 1 else q + q % 2

/-- A result and the conditions it raises. -/
structure Rounded where
  bits : Nat := 0
  inv : Bool := false
  ovf : Bool := false
  deriving DecidableEq, Repr

/-- The canonical quiet NaN of a format (R54); formats without a NaN hold zero (R53). -/
def Fmt.nan : Fmt → Nat
  | .f32 => 0x7FC00000
  | .bf16 => 0x7FC0
  | .f16 => 0x7E00
  | .e5m2 => 0x7E
  | .e4m3 => 0x7F
  | .f64 => 0x7FF8000000000000
  | .i32 => 0
  | .i8 => 0
  | .e2m3 => 0
  | .e3m2 => 0
  | .e2m1 => 0

/-- Whether a format has a NaN (R57). -/
def Fmt.hasNan (f : Fmt) : Bool := f.nan != 0

/-- The code of a sign, an exponent field and a fraction. -/
def fpCode (p : FpSpec) (neg : Bool) (e f : Nat) : Nat := (b2n neg <<< (p.eb + p.m)) + (e <<< p.m) + f

/-- The largest finite code of a format (R32). -/
def Fmt.maxCode (f : Fmt) (neg : Bool) : Nat :=
  fpCode f.spec neg (f.spec.emax + f.spec.bias).toNat f.spec.fmax

/-- The infinity code of a format that has one (R32). -/
def Fmt.infCode (f : Fmt) (neg : Bool) : Nat := fpCode f.spec neg (2 ^ f.spec.eb - 1) 0

/-- The bound an integer format saturates to (R53, R185). -/
def intBound (w : Nat) (neg : Bool) : Nat := if neg then 2 ^ (w - 1) else 2 ^ (w - 1) - 1

/-- The result of a finite value that is too large for its format (R53); ovfMode is true for overflow mode. -/
def tooLarge (f : Fmt) (ovfMode neg : Bool) : Nat :=
  if f.isInt then intBound f.width neg
  else if ovfMode && f.hasInf then f.infCode neg
  else if ovfMode && f = .e4m3 then f.nan
  else f.maxCode neg

/-- Convert a finite value (R49, R52, R53, R57, R185). -/
def encodeFin (f : Fmt) (r : Rnd) (ovfMode neg : Bool) (mag : Nat) (e : Int) : Rounded :=
  if mag = 0 then { bits := if f.isInt then 0 else fpCode f.spec neg 0 0 }
  else if f.isInt then
    let q := roundUnits r mag e 0
    if (if neg then 2 ^ (f.width - 1) else 2 ^ (f.width - 1) - 1) < q then
      { bits := intBound f.width neg, ovf := true }
    else { bits := wrap f.width (if neg then -(q : Int) else q) }
  else
    let p := f.spec
    let lp := max (floorLog2 mag e) p.emin - p.m
    let q := roundUnits r mag e lp
    if q < 2 ^ p.m then { bits := fpCode p neg 0 q }
    else
      let k := Nat.log2 q
      let ye := (k : Int) + lp
      let frac := (q <<< p.m >>> k) - 2 ^ p.m
      if p.emax < ye || (ye == p.emax && p.fmax < frac) then { bits := tooLarge f ovfMode neg, ovf := true }
      else { bits := fpCode p neg (ye + p.bias).toNat frac }

/-- Convert an infinity (R53, R57). -/
def encodeInf (f : Fmt) (ovfMode neg : Bool) : Rounded :=
  if f.hasInf then { bits := f.infCode neg } else { bits := tooLarge f ovfMode neg, ovf := true }

/-- Convert any value to an unscaled format (R52 to R54, R57, R185). -/
def encode (f : Fmt) (r : Rnd) (ovfMode : Bool) (x : Num) : Rounded :=
  match x with
  | .nan => { bits := f.nan, inv := !f.hasNan }
  | .inf neg => encodeInf f ovfMode neg
  | .fin neg mag e => encodeFin f r ovfMode neg mag e

/-! ### Exact arithmetic -/

/-- Sign of a value; NaN counts as positive. -/
def Num.neg : Num → Bool
  | .nan => false
  | .inf s => s
  | .fin s _ _ => s

/-- Whether a value is a zero. -/
def Num.isZero : Num → Bool
  | .fin _ 0 _ => true
  | _ => false

/-- Whether a value is finite and not zero. -/
def Num.isFin : Num → Bool
  | .fin _ (_ + 1) _ => true
  | _ => false

/-- The value with its sign inverted. -/
def Num.flip : Num → Num
  | .nan => .nan
  | .inf s => .inf (!s)
  | .fin s m e => .fin (!s) m e

/-- The value with its sign cleared. -/
def Num.abs : Num → Num
  | .nan => .nan
  | .inf _ => .inf false
  | .fin _ m e => .fin false m e

/-- The value times 2^k. -/
def Num.scale (x : Num) (k : Int) : Num :=
  match x with
  | .fin s m e => .fin s m (e + k)
  | y => y

/-- Signed significand of a finite value at an exponent not above its own. -/
def signedAt (neg : Bool) (mag : Nat) (e lo : Int) : Int :=
  let v : Int := (mag <<< (e - lo).toNat : Nat)
  if neg then -v else v

/-- Exact sum of two finite values; a zero sum of two zeros of one sign keeps it, any other zero sum is +0. -/
def addFin (s1 : Bool) (m1 : Nat) (e1 : Int) (s2 : Bool) (m2 : Nat) (e2 : Int) : Num :=
  let lo := min e1 e2
  let v := signedAt s1 m1 e1 lo + signedAt s2 m2 e2 lo
  if v = 0 then .fin (m1 == 0 && m2 == 0 && s1 && s2) 0 0 else .fin (decide (v < 0)) v.natAbs lo

/-- Exact sum; true for infinity minus infinity (R51, R178). -/
def Num.add (a b : Num) : Num × Bool :=
  match a, b with
  | .nan, _ => (.nan, false)
  | _, .nan => (.nan, false)
  | .inf s, .inf t => if s == t then (.inf s, false) else (.nan, true)
  | .inf s, .fin _ _ _ => (.inf s, false)
  | .fin _ _ _, .inf t => (.inf t, false)
  | .fin s1 m1 e1, .fin s2 m2 e2 => (addFin s1 m1 e1 s2 m2 e2, false)

/-- Exact product; true for zero times infinity (R45, R178). -/
def Num.mul (a b : Num) : Num × Bool :=
  match a, b with
  | .nan, _ => (.nan, false)
  | _, .nan => (.nan, false)
  | .inf s, .inf t => (.inf (s ^^ t), false)
  | .inf s, .fin t m _ => if m = 0 then (.nan, true) else (.inf (s ^^ t), false)
  | .fin s m _, .inf t => if m = 0 then (.nan, true) else (.inf (s ^^ t), false)
  | .fin s m e, .fin t n f => (.fin (s ^^ t) (m * n) (e + f), false)

/-- Order of two values that are not NaN: -1, 0 or 1; +0 equals -0. -/
def Num.cmp (a b : Num) : Int :=
  match a, b with
  | .inf s, .inf t => if s == t then 0 else if s then -1 else 1
  | .inf s, _ => if s then -1 else 1
  | _, .inf t => if t then 1 else -1
  | .fin s1 m1 e1, .fin s2 m2 e2 =>
    let lo := min e1 e2
    let d := signedAt s1 m1 e1 lo - signedAt s2 m2 e2 lo
    if d < 0 then -1 else if 0 < d then 1 else 0
  | _, _ => 0

/-- Magnitude order of two finite values. -/
def magLt (m1 : Nat) (e1 : Int) (m2 : Nat) (e2 : Int) : Bool :=
  let lo := min e1 e2
  decide (m1 <<< (e1 - lo).toNat < m2 <<< (e2 - lo).toNat)

/-- Round an exact value to binary32, bfloat16 or binary16, to nearest even with overflow to infinity (R177, R178). -/
def roundNear (f : Fmt) (x : Num) : Rounded := encode f .rne true x

/-- Sum and rounding of a vector add (R178). -/
def fpAdd (f : Fmt) (a b : Num) : Rounded :=
  let r := a.add b
  { roundNear f r.1 with inv := r.2 }

/-- Product and rounding of a vector multiply (R178). -/
def fpMul (f : Fmt) (a b : Num) : Rounded :=
  let r := a.mul b
  { roundNear f r.1 with inv := r.2 }

/-- Fused multiply-add (R177, R178): a NaN in any source raises nothing. -/
def fpFma (f : Fmt) (a b c : Num) : Rounded :=
  if a = .nan || b = .nan || c = .nan then { bits := f.nan }
  else
    let p := a.mul b
    if p.2 then { bits := f.nan, inv := true }
    else fpAdd f p.1 c

/-- binary32 to its value and back. -/
def f32 (w : W32) : Num := decode .f32 w.toNat

/-- The binary32 word nearest to an exact value. -/
def toF32 (x : Num) : W32 := BitVec.ofNat 32 (roundNear .f32 x).bits

/-- binary32 round-to-nearest-even sum, with the special values of R158. -/
def rnAdd (a b : W32) : W32 := BitVec.ofNat 32 (fpAdd .f32 (f32 a) (f32 b)).bits

/-- binary32 round-to-nearest-even product. -/
def rnMul (a b : W32) : W32 := BitVec.ofNat 32 (fpMul .f32 (f32 a) (f32 b)).bits

/-- binary32 round-to-nearest-even difference. -/
def rnSub (a b : W32) : W32 := BitVec.ofNat 32 (fpAdd .f32 (f32 a) (f32 b).flip).bits

/-- Integer square root by Newton steps from above. -/
def isqrtGo (n : Nat) : Nat → Nat → Nat
  | 0, x => x
  | k + 1, x =>
    let y := (x + n / x) / 2
    if y < x then isqrtGo n k y else x

/-- floor of the square root. -/
def isqrt (n : Nat) : Nat := if n = 0 then 0 else isqrtGo n (Nat.log2 n + 8) (2 ^ (Nat.log2 n / 2 + 1))

/-- A positive quotient as significand and exponent, with every discarded bit folded into the lowest (so one rounding of
it to at most `p` bits is the rounding of the exact quotient). -/
def quotSticky (p m n : Nat) (e : Int) : Nat × Int :=
  let k := p + Nat.log2 n + 2
  let q := (m <<< k) / n
  let r := (m <<< k) % n
  (2 * q + (if r = 0 then 0 else 1), e - k - 1)

/-- Exact quotient, rounded once to binary32 to nearest even; zero over zero and infinity over infinity are invalid. -/
def fpDiv (a b : Num) : Rounded :=
  match a, b with
  | .nan, _ => { bits := Fmt.f32.nan }
  | _, .nan => { bits := Fmt.f32.nan }
  | .inf _, .inf _ => { bits := Fmt.f32.nan, inv := true }
  | .inf s, .fin t _ _ => { bits := Fmt.f32.infCode (s ^^ t) }
  | .fin s _ _, .inf t => { bits := fpCode Fmt.f32.spec (s ^^ t) 0 0 }
  | .fin s m e, .fin t n f =>
    if n = 0 then (if m = 0 then { bits := Fmt.f32.nan, inv := true } else { bits := Fmt.f32.infCode (s ^^ t) })
    else if m = 0 then { bits := fpCode Fmt.f32.spec (s ^^ t) 0 0 }
    else
      let q := quotSticky 200 m n (e - f)
      roundNear .f32 (.fin (s ^^ t) q.1 q.2)

/-- The square root of m x 2^e with its discarded bits folded into the lowest. -/
def sqrtSticky (p m : Nat) (e : Int) : Nat × Int :=
  let k := 2 * p + (if e % 2 = 0 then 0 else 1)
  let n := m <<< k
  let q := isqrt n
  (2 * q + (if q * q = n then 0 else 1), (e - k) / 2 - 1)

/-- binary32 square root to nearest even; of a negative value NaN, invalid. -/
def fpSqrt (a : Num) : Rounded :=
  match a with
  | .nan => { bits := Fmt.f32.nan }
  | .inf s => if s then { bits := Fmt.f32.nan, inv := true } else { bits := Fmt.f32.infCode false }
  | .fin s m e =>
    if m = 0 then { bits := fpCode Fmt.f32.spec s 0 0 }
    else if s then { bits := Fmt.f32.nan, inv := true }
    else
      let q := sqrtSticky 40 m e
      roundNear .f32 (.fin false q.1 q.2)

/-! ### MX blocks -/

/-- emax_elem of R55. -/
def Fmt.emaxElem (f : Fmt) : Int := f.spec.emax

/-- Decode an element of an MX block under its scale byte (R37, R38). -/
def decodeMx (f : Fmt) (scale n : Nat) : Num :=
  if scale = 0xFF then .nan else (decode f n).scale ((scale : Int) - 127)

/-- The largest magnitude among the finite values, as significand and exponent (R41, R55). -/
def amax : List Num → Nat × Int
  | [] => (0, 0)
  | .fin _ m e :: t => let r := amax t; if magLt r.1 r.2 m e then (m, e) else r
  | _ :: t => amax t

/-- X of an MX block (R55). -/
def mxX (f : Fmt) (a : Nat × Int) : Int :=
  if a.1 = 0 then -127 else max (-127) (min 127 (floorLog2 a.1 a.2 - f.emaxElem))

/-- Scale byte of an MX block: 0xFF for a NaN, or in overflow mode for an infinity that is not E5M2's (R55, R56). -/
def mxScaleByte (f : Fmt) (ovfMode : Bool) (vs : List Num) : Nat :=
  let isInf := vs.any fun v => v = .inf false || v = .inf true
  if vs.any (fun v => v = .nan) || (isInf && ovfMode && f ≠ .e5m2) then 0xFF
  else (mxX f (amax vs) + 127).toNat

/-- Convert a finite value at 2^-X to an MX element: it saturates in either mode, and overflows only from
2^(emax_elem + 1) on (R55, R573). -/
def mxElem (f : Fmt) (r : Rnd) (neg : Bool) (mag : Nat) (e : Int) : Rounded :=
  let c := encodeFin f r false neg mag e
  { bits := c.bits, ovf := decide (mag ≠ 0) && decide (f.emaxElem + 1 ≤ floorLog2 mag e) }

/-- Encode one value of an MX block whose scale byte is known (R55, R56, R573). DEDUCED: an infinity in a block that is
0xFF raises overflow where the infinity itself makes it so (overflow mode, not E5M2), a NaN beside it or not. -/
def mxEncodeOne (f : Fmt) (r : Rnd) (ovfMode : Bool) (scale : Nat) (v : Num) : Rounded :=
  match v with
  | .fin neg mag e => if scale = 0xFF then {} else mxElem f r neg mag (e - ((scale : Int) - 127))
  | .inf neg => if scale = 0xFF then { ovf := ovfMode && f ≠ .e5m2 } else encodeInf f false neg
  | .nan => {}

/-- Encode an MX block: scale byte and element codes, one rounding each (R55, R56, R573). -/
def mxEncode (f : Fmt) (ovfMode : Bool) (vs : List (Num × Rnd)) : Nat × List Rounded :=
  let sc := mxScaleByte f ovfMode (vs.map Prod.fst)
  (sc, vs.map fun v => mxEncodeOne f v.2 ovfMode sc v.1)

/-! ### S16 blocks -/

/-- X of an S16 block (R41). -/
def s16X (a : Nat × Int) : Int := if a.1 = 0 then -127 else min 127 (max (floorLog2 a.1 a.2 - 14) (-127))

/-- Encode an S16 block: scale byte and elements (R41). -/
def s16Encode (vs : List (Num × Rnd)) : Nat × List Rounded :=
  let x := s16X (amax (vs.map Prod.fst))
  ((x + 127).toNat, vs.map fun v => encode .f16 v.2 true (v.1.scale (-x)))

/-- Decode an S16 element under its scale byte (R40). -/
def s16Decode (scale n : Nat) : Num :=
  if scale = 0xFF then .nan else (decode .f16 n).scale ((scale : Int) - 127)

/-! ### Ingots -/

/-- The ingot of sign, exponent field and significand (R42). -/
def ingot (s : Bool) (e m : Nat) : BitVec 22 := BitVec.ofNat 22 ((b2n s <<< 21) + (e <<< 11) + m)

/-- Decode to the ingot form, exact for every operand (R42, R43). -/
def toIngot (x : Num) : BitVec 22 :=
  match x with
  | .nan => ingot false 0x3FF 0x400
  | .inf s => ingot s 0x3FF 0
  | .fin s m e =>
    if m = 0 then ingot s 0 0
    else ingot s (floorLog2 m e + 511).toNat (m <<< 10 >>> Nat.log2 m)

/-- The value an ingot stands for (R42). A combination that the decoder never produces, such as one left by an upset,
keeps its fields' meaning by the same formula. -/
def ofIngot (i : BitVec 22) : Num :=
  let n := i.toNat
  let s := bit n 21
  let e := bits n 20 11
  let m := bits n 10 0
  if e = 0x3FF then (if m = 0 then .inf s else .nan)
  else .fin s m ((e : Int) - 521)

/-- Product of two ingots (R44, R45); the full product in split mode (R60). True for zero times infinity. -/
def ingotMul (full : Bool) (a b : BitVec 22) : Num × Bool :=
  match ofIngot a, ofIngot b with
  | .fin s m e, .fin t n f =>
    if full then (.fin (s ^^ t) (m * n) (e + f), false)
    else (.fin (s ^^ t) ((m * n) >>> 6) (e + f + 6), false)
  | x, y => x.mul y

/-- Product in one of the five split passes other than hi·hi: a zero piece times an infinite piece is +0 (R60). -/
def ingotMulLow (a b : BitVec 22) : Num × Bool :=
  let r := ingotMul true a b
  if r.2 then (Num.zero, false) else r

/-- The largest floor(log2) among the finite non-zero values. -/
def treeEmax : List Num → Option Int
  | [] => none
  | .fin _ m e :: t =>
    if m = 0 then treeEmax t
    else match treeEmax t with
      | none => some (floorLog2 m e)
      | some x => some (max x (floorLog2 m e))
  | _ :: t => treeEmax t

/-- Sum of the magnitudes truncated to units of 2^lo, with their signs (R46). -/
def treeFixed (lo : Int) : List Num → Int
  | [] => 0
  | .fin s m e :: t =>
    let v : Int := (scaleFloor m (e - lo) : Nat)
    (if s then -v else v) + treeFixed lo t
  | _ :: t => treeFixed lo t

/-- A tree sum (R46 to R48). True for infinities of both signs. -/
def treeSum (ps : List Num) : Num × Bool :=
  let pos := ps.any fun p => p = .inf false
  let ng := ps.any fun p => p = .inf true
  if pos && ng then (.nan, true)
  else if ps.any fun p => p = .nan then (.nan, false)
  else if pos then (.inf false, false)
  else if ng then (.inf true, false)
  else match treeEmax ps with
    | none => (Num.zero, false)
    | some emax =>
      let v := treeFixed (emax - 40) ps
      if v = 0 then (Num.zero, false) else (.fin (decide (v < 0)) v.natAbs (emax - 40), false)

/-- Add a term to a binary32 accumulator with stochastic rounding (R51). -/
def accumulate (acc : W32) (term : Num) (r : Nat) : W32 × Bool × Bool :=
  match f32 acc with
  | .nan => (BitVec.ofNat 32 Fmt.f32.nan, false, false)
  | a =>
    let sum := a.add term
    if sum.1.isZero then (0, sum.2, false)
    else
      let c := encode .f32 (.sr r) true sum.1
      (BitVec.ofNat 32 c.bits, sum.2, c.ovf)

/-- The three pieces of a binary32 operand in split mode, as ingots (R59). -/
def splitPieces (x : Num) : BitVec 22 × BitVec 22 × BitVec 22 :=
  match x with
  | .fin s m e =>
    -- N has weight 2^ex at bit 23: a subnormal and a zero keep the exponent of their fixed last place
    let hi := m >>> 13
    let mid := (m >>> 2) % 2 ^ 11
    let lo := m % 4
    (toIngot (.fin s hi (e + 13)), toIngot (.fin s mid (e + 2)), toIngot (.fin s lo e))
  | y => (toIngot y, toIngot Num.zero, toIngot Num.zero)

/-! ### Lane generators -/

/-- mix of R61. -/
def mix (x : W64) : W64 :=
  let x := (x ^^^ (x >>> 30)) * 0xBF58476D1CE4E5B9
  let x := (x ^^^ (x >>> 27)) * 0x94D049BB133111EB
  x ^^^ (x >>> 31)

/-- draw of R61. -/
def draw (k chi clo : W64) : W64 := mix (mix (k ^^^ chi) ^^^ clo)

/-- Chi and Clo of R62. -/
def chi (cls g lane : Nat) : W64 := BitVec.ofNat 64 ((cls <<< 56) + ((g % 2 ^ 40) <<< 16) + lane % 2 ^ 16)

/-- Clo of R62. -/
def clo (op : W32) (index : Nat) : W64 := BitVec.ofNat 64 ((op.toNat <<< 32) + index % 2 ^ 32)

/-- Slice s of a draw (R62). -/
def slice (d : W64) (s : Nat) : Nat := (d.toNat >>> (16 * s)) % 2 ^ 16

/-- The slice a rounding takes: class, step, lane, operation id, index, slice (R62, R64). -/
def laneSlice (seed : W64) (cls g lane : Nat) (op : W32) (index s : Nat) : Nat :=
  slice (draw seed (chi cls g lane) (clo op index)) s

end Sys2Proof.Machine
end

