-- ==== Sys2Proof/Machine/Ecc.lean ====
section
/-! DEFINITION. The stored-data codes (R237 to R243, R257). Both codes are linear, so what a decoder delivers depends only
on the error pattern; the model keeps the written data and the pattern beside it. -/
namespace Sys2Proof.Machine

/-! ### SEC-DED words -/

/-- What the decode of a (72,64) word yields: the exclusive-or left on the data, whether it corrected, whether it is
uncorrectable. -/
structure WordDec where
  mask : Nat := 0
  fixed : Bool := false
  bad : Bool := false
  deriving DecidableEq, Repr

/-- Decode by the flipped code bits (R237): one is corrected, two are detected; more are the implementation's. -/
def secded : List Nat → WordDec
  | [] => {}
  | [_] => { fixed := true }
  | [_, _] => { bad := true }
  | l => match Config.secdedBeyond l with
    | none => { bad := true }
    | some m => { mask := m.toNat, fixed := true }

/-- Toggle one code bit of a word's error pattern, kept in rising order. -/
def toggleBit (l : List Nat) (b : Nat) : List Nat :=
  if b ∈ l then l.filter (· != b) else (l.filter (· < b)) ++ b :: l.filter (b < ·)

/-- Toggle flipped bits of a store's words. -/
def toggleBits (t : Tbl (List Nat)) (hits : List (Nat × Nat)) : Tbl (List Nat) :=
  hits.foldl (fun t h => tput [] t h.1 (toggleBit (tget [] t h.1) h.2)) t

/-! ### The sector code RS(36,32) -/

/-- Multiply by alpha = 0x02 modulo x^8 + x^4 + x^3 + x^2 + 1 (R238). -/
def gfX (a : Nat) : Nat := if a < 128 then 2 * a else (2 * a) ^^^ 0x11D

/-- Product in GF(2^8), by the bits of the second factor. -/
def gfMul : Nat → Nat → Nat → Nat
  | 0, _, _ => 0
  | k + 1, a, b => (if b % 2 = 1 then a else 0) ^^^ gfMul k (gfX a) (b / 2)

/-- Product of two field elements. -/
def gmul (a b : Nat) : Nat := gfMul 8 a b

/-- alpha^n. -/
def gpow : Nat → Nat
  | 0 => 1
  | n + 1 => gfX (gpow n)

/-- a^254, the inverse of a non-zero element. -/
def ginv (a : Nat) : Nat :=
  let a2 := gmul a a
  let a4 := gmul a2 a2
  let a8 := gmul a4 a4
  let a16 := gmul a8 a8
  let a32 := gmul a16 a16
  let a64 := gmul a32 a32
  let a128 := gmul a64 a64
  gmul a128 (gmul a64 (gmul a32 (gmul a16 (gmul a8 (gmul a4 a2)))))

/-- Locator of symbol i: bytes 0 to 31 are the coefficients of x^35 down to x^4, the check bytes of x^3 to x^0 (R238). -/
def rsLoc (i : Nat) : Nat := gpow (35 - i)

/-- The four syndromes of an error pattern: it evaluated at alpha^0 to alpha^3. -/
def rsSyndromes (e : List (Nat × Byte)) : List Nat :=
  [0, 1, 2, 3].map fun j => e.foldl (fun s h => s ^^^ gmul h.2.toNat (gpow (j * (35 - h.1)))) 0

/-- Whether errors a at symbol i and b at symbol k (none where i = k) have the syndromes. -/
def rsFits (syn : List Nat) (e : List (Nat × Nat)) : Bool :=
  rsSyndromes (e.map fun h => (h.1, BitVec.ofNat 8 h.2)) == syn

/-- Candidate patterns of two symbols that agree with the first two syndromes. -/
def rsPairs (s0 s1 : Nat) : List (List (Nat × Nat)) :=
  (List.range 36).flatMap fun i => (List.range i).filterMap fun k =>
    let x := rsLoc i
    let y := rsLoc k
    let a := gmul (s1 ^^^ gmul s0 y) (ginv (x ^^^ y))
    let b := s0 ^^^ a
    if a = 0 || b = 0 then none else some [(i, a), (k, b)]

/-- The pattern of at most two symbols that explains the syndromes, or none (R239). It is unique: the code's distance is 5. -/
def rsSolve (syn : List Nat) : Option (List (Nat × Nat)) :=
  if syn == [0, 0, 0, 0] then some []
  else
    let s0 := lget 0 syn 0
    let one := ((List.range 36).map fun i => [(i, s0)]).find? (rsFits syn)
    match one with
    | some e => some e
    | none => (rsPairs s0 (lget 0 syn 1)).find? (rsFits syn)

/-- What the decode of a sector yields: the exclusive-or by symbol left on it, how many symbols it corrected, whether it is
uncorrectable. -/
structure SectorDec where
  left : List (Nat × Byte) := []
  fixed : Nat := 0
  bad : Bool := false
  deriving DecidableEq, Repr

/-- Decode by the error pattern (R239); a sector with poison check bytes is uncorrectable (R257). -/
def rsDecode (poison : Bool) (e : List (Nat × Byte)) : SectorDec :=
  if poison then { bad := true }
  else if e = [] then {}
  else match rsSolve (rsSyndromes e) with
    | none => { bad := true }
    | some c => { left := e ++ c.map fun h => (h.1, BitVec.ofNat 8 h.2), fixed := c.length }

/-- Bytes with patterns laid over them; patterns past the data are check symbols. -/
def xorSymbols (data : List Byte) (e : List (Nat × Byte)) : List Byte :=
  e.foldl (fun d h => if h.1 < d.length then d.set h.1 (d.getD h.1 0 ^^^ h.2) else d) data

/-- Add an error pattern to a symbol's, dropping it where they cancel. -/
def toggleSymbol (l : List (Nat × Byte)) (i : Nat) (p : Byte) : List (Nat × Byte) :=
  let v := tget 0 l i ^^^ p
  tput 0 l i v

end Sys2Proof.Machine
end

