-- ==== Sys2Proof/Machine/Memory.lean ====
section
/-! DEFINITION. The address map (R203), placement (R208, R210), memory bytes, sectors and valid plates (R222, R223, R230 to
R233, R237 to R243), and the words of local and instruction stores (R145, R237, R242, R243). -/
namespace Sys2Proof.Machine

/-! ### Units of the package -/

/-- A hub by number. -/
def State.hub (s : State) (h : Nat) : Hub := tget {} s.hubs h

/-- Replace a hub. -/
def State.setHub (s : State) (h : Nat) (v : Hub) : State := { s with hubs := tset s.hubs h v }

/-- Change a hub. -/
def State.updHub (s : State) (h : Nat) (f : Hub → Hub) : State := s.setHub h (f (s.hub h))

/-- A tile die by physical position. -/
def State.tile (s : State) (p : Nat) : Tile := tget {} s.tiles p

/-- Replace a tile die. -/
def State.setTile (s : State) (p : Nat) (v : Tile) : State := { s with tiles := tset s.tiles p v }

/-- Change a tile die. -/
def State.updTile (s : State) (p : Nat) (f : Tile → Tile) : State := s.setTile p (f (s.tile p))

/-! ### The address map -/

/-- Size of a hub's HBM slice (R203). -/
def hbmSlice : Nat := 0x3000000000

/-- Size of a hub's slow-tier slice (R203). -/
def slowSlice : Nat := 0x2000000000

/-- Base of the slow tier (R203). -/
def slowBase : Nat := 0x20000000000

/-- Base of register space (R203). -/
def regBase : Nat := 0x3F000000000

/-- Capacity D of a slow-tier channel by its code, in bytes (R209, R211). -/
def slowCap : Nat → Nat
  | 1 => 16 * 2 ^ 30
  | 2 => 32 * 2 ^ 30
  | 3 => 64 * 2 ^ 30
  | _ => 0

/-- Where a memory address lies: hub, true for the slow tier, offset in the slice (R203, R208, R210). -/
def addrHome (a : Nat) : Option (Nat × Bool × Nat) :=
  if a < 8 * hbmSlice then some (a / hbmSlice, false, a % hbmSlice)
  else if slowBase ≤ a && a < slowBase + 8 * slowSlice then
    some ((a - slowBase) / slowSlice, true, (a - slowBase) % slowSlice)
  else none

/-- The address of an offset in a hub's slice. -/
def sliceAddr (h : Nat) (slow : Bool) (o : Nat) : Nat := if slow then slowBase + h * slowSlice + o else h * hbmSlice + o

/-- Whether a memory address is HBM or the populated part of the slow tier (R195, R203, R210). -/
def State.memOk (s : State) (a : Nat) : Bool :=
  match addrHome a with
  | none => false
  | some (_, false, _) => true
  | some (h, true, o) => decide (o < 2 * slowCap (s.hub h).slowSize)

/-- A physical place in HBM (R207, R208): stack M(stack), channel of the stack, channel of the hub, pseudo-channel, stack ID, bank
group, bank, row, and byte of the 1 KiB row. -/
structure HbmPlace where
  stack : Nat
  schan : Nat
  chan : Nat
  pc : Nat
  sid : Nat
  bg : Nat
  bank : Nat
  row : Nat
  colbyte : Nat
  deriving DecidableEq, Repr

/-- hbm_place of R208. -/
def hbmPlace (a : Nat) : HbmPlace :=
  let n := a / hbmSlice
  let o := a - n * hbmSlice
  let g := o >>> 8
  let q := g / 96
  let r := g % 96
  let h := (q ^^^ (q >>> 7) ^^^ (q >>> 14) ^^^ (q >>> 21)) % 128
  let c := (r + h % 96) % 96
  let sector := (o >>> 5) % 8
  { stack := 3 * n + c / 32, schan := c % 32, chan := c, pc := sector % 2
    sid := ((q >>> 7) ^^^ (q >>> 13)) % 4, bg := ((q >>> 3) ^^^ (q >>> 9)) % 4, bank := ((q >>> 5) ^^^ (q >>> 11)) % 4
    row := q >>> 9, colbyte := q % 8 * 128 + sector / 2 * 32 + o % 32 }

/-- A physical place in the slow tier (R209, R210): channel L(chan), sub-channel, bank group, bank, row, byte of the 2 KiB row. -/
structure SlowPlace where
  chan : Nat
  sub : Nat
  bg : Nat
  bank : Nat
  row : Nat
  colbyte : Nat
  deriving DecidableEq, Repr

/-- slow_place of R210. -/
def slowPlace (a : Nat) : SlowPlace :=
  let n := (a - slowBase) / slowSlice
  let o := a - slowBase - n * slowSlice
  let g := o >>> 8
  let q := g >>> 1
  let sector := (o >>> 5) % 8
  { chan := 2 * n + g % 2, sub := sector % 4, bg := ((q >>> 5) ^^^ (q >>> 9)) % 4, bank := ((q >>> 7) ^^^ (q >>> 11)) % 4
    row := q >>> 9, colbyte := q % 32 * 64 + sector / 4 * 32 + o % 32 }

/-- The bank queue of a place of its hub (R218): HBM 0 to 12,287, slow tier from 12,288. -/
def HbmPlace.queue (p : HbmPlace) : Nat := (p.chan * 2 + p.pc) * 64 + p.sid * 16 + p.bg * 4 + p.bank
def SlowPlace.queue (p : SlowPlace) : Nat := 12288 + (p.chan % 2 * 4 + p.sub) * 16 + p.bg * 4 + p.bank

/-- The bank queue and the row of an address. -/
def bankOf (a : Nat) : Nat × Nat :=
  if a < slowBase then ((hbmPlace a).queue, (hbmPlace a).row) else ((slowPlace a).queue, (slowPlace a).row)

/-! ### Bytes -/

/-- One byte of memory; an unlisted byte is zero (R232). -/
def readByte (m : List Host.Cell) (a : Nat) : Byte := tget 0 m a

/-- Write one byte, keeping the canonical form. -/
def writeByte (m : List Host.Cell) (a : Nat) (b : Byte) : List Host.Cell := tput 0 m a b

/-- n bytes from an address. -/
def readBytes (m : List Host.Cell) (a : Nat) : Nat → List Byte
  | 0 => []
  | n + 1 => readByte m a :: readBytes m (a + 1) n

/-- Write bytes from an address. -/
def writeBytes (m : List Host.Cell) (a : Nat) : List Byte → List Host.Cell
  | [] => m
  | b :: t => writeBytes (writeByte m a b) (a + 1) t

/-- Write the bytes that are present. -/
def writeMasked (m : List Host.Cell) (a : Nat) : List (Option Byte) → List Host.Cell
  | [] => m
  | none :: t => writeMasked m (a + 1) t
  | some b :: t => writeMasked (writeByte m a b) (a + 1) t

/-- The canonical form of memory: addresses rise strictly and no entry is zero. -/
def Memory.wf (m : List Host.Cell) : Bool := tcanon 0 m

/-- Drop every entry in a range (an invalid plate reads zero, R232). -/
def dropRange {α : Type} (t : Tbl α) (lo len : Nat) : Tbl α := t.filter fun e => !(decide (lo ≤ e.1 ∧ e.1 < lo + len))

/-! ### Plates -/

/-- Word of the valid bitmap that holds a plate's bit, counted through the HBM part (6 MiB) and then the slow-tier part (R230), and
the key of a word of a hub SRAM structure (R247: 0 valid bitmap, 1 add buffer, 2 map-out list). -/
def bitmapWord (slow : Bool) (plate : Nat) : Nat := (if slow then 786432 else 0) + plate / 64
def sramKey (st word : Nat) : Nat := st * 2 ^ 24 + word

/-- What the decode of a hub SRAM word yields (R237). -/
def Hub.sramDecode (h : Hub) (st word : Nat) : WordDec := secded (tget [] h.sramErr (sramKey st word))

/-- Stored valid bit of a plate. -/
def Hub.validBit (h : Hub) (slow : Bool) (plate : Nat) : Bool :=
  if slow then tget false h.validSlow plate else tget false h.validHbm plate

/-- Valid bit of a plate as its word's decode delivers it (R230, R237). -/
def Hub.valid (h : Hub) (slow : Bool) (plate : Nat) : Bool :=
  h.validBit slow plate ^^ bit (h.sramDecode 0 (bitmapWord slow plate)).mask (plate % 64)

/-- Store a valid bit. -/
def Hub.putValid (h : Hub) (slow : Bool) (plate : Nat) (v : Bool) : Hub :=
  if slow then { h with validSlow := tput false h.validSlow plate v } else { h with validHbm := tput false h.validHbm plate v }

/-- Write back the bitmap word of a plate as its decode delivers it (R243). -/
def Hub.scrubBitmap (h : Hub) (slow : Bool) (plate : Nat) : Hub :=
  let w := bitmapWord slow plate
  let m := (h.sramDecode 0 w).mask
  let h := if m = 0 then h
    else (List.range 64).foldl (fun h i =>
      if bit m i then h.putValid slow (plate / 64 * 64 + i) (!h.validBit slow (plate / 64 * 64 + i)) else h) h
  { h with sramErr := terase h.sramErr (sramKey 0 w) }

/-- Words of the valid bitmap in error that a range of plates touches, as plates of their first bits. -/
def Hub.badBitmap (h : Hub) (slow : Bool) (plate count : Nat) : List Nat :=
  let base := if slow then 786432 else 0
  (h.sramErr.filter fun e => decide (base ≤ e.1 ∧ e.1 < base + 786432 ∧ (e.1 - base) * 64 < plate + count ∧ plate < (e.1 - base) * 64 + 64)).map
    fun e => (e.1 - base) * 64

/-- Drop what a range of plates stores: they read zero (R232). -/
def State.dropPlates (s : State) (h : Nat) (slow : Bool) (plate count : Nat) : State :=
  let base := sliceAddr h slow (plate * 4096)
  { s with mem := dropRange s.mem base (count * 4096)
           memErr := dropRange s.memErr base (count * 4096)
           poison := dropRange s.poison base (count * 4096) }

/-- Write back the bitmap word of a plate as its decode delivers it (R243). A plate whose bit this clears is invalid, and is filled with
zeros before its next write (R233): what it stores is dropped. -/
def State.scrubBitmap (s : State) (h : Nat) (slow : Bool) (plate : Nat) : State :=
  let x := s.hub h
  let m := (x.sramDecode 0 (bitmapWord slow plate)).mask
  let lost := if m = 0 then [] else ((List.range 64).map (plate / 64 * 64 + ·)).filter fun p => bit m (p % 64) && x.validBit slow p
  (lost.foldl (fun s p => s.dropPlates h slow p 1) s).updHub h fun x => x.scrubBitmap slow plate

/-- Clear the valid bits of a range of plates (R231): the plates then read zero (R232). A word in error that it covers in part is decoded
and re-encoded (R243). -/
def State.clearPlates (s : State) (h : Nat) (slow : Bool) (plate count : Nat) : State :=
  let s := ((s.hub h).badBitmap slow plate count).foldl (fun s p => s.scrubBitmap h slow p) s
  (s.updHub h fun hb =>
    if slow then { hb with validSlow := dropRange hb.validSlow plate count }
    else { hb with validHbm := dropRange hb.validHbm plate count }).dropPlates h slow plate count

/-- Whether the stored valid bit of an address's plate is set. -/
def State.plateStored (s : State) (a : Nat) : Bool :=
  match addrHome a with
  | none => false
  | some (h, slow, o) => (s.hub h).validBit slow (o / 4096)

/-- Whether the plate of an address is valid. -/
def State.plateValid (s : State) (a : Nat) : Bool :=
  match addrHome a with
  | none => false
  | some (h, slow, o) => (s.hub h).valid slow (o / 4096)

/-- Mark the plate of an address valid, filled with zeros if it was not (R233): its bitmap word is decoded, merged and re-encoded (R243). -/
def State.fillPlate (s : State) (a : Nat) : State :=
  match addrHome a with
  | none => s
  | some (h, slow, o) => (s.scrubBitmap h slow (o / 4096)).updHub h fun hb => hb.putValid slow (o / 4096) true

/-! ### Sectors -/

/-- The sector an address lies in. -/
def sectorOf (a : Nat) : Nat := a / 32 * 32

/-- The sectors of a byte range, in rising order. -/
def sectorsOf (a len : Nat) : List Nat :=
  if len = 0 then [] else (List.range ((a + len - 1) / 32 - a / 32 + 1)).map fun i => (a / 32 + i) * 32

/-- Let symbol errors strike stored sectors (R237). A sector of an invalid plate stores nothing. -/
def State.hitSectors (s : State) (hits : SectorHits) : State :=
  hits.foldl (fun s h =>
    let a := sectorOf h.1
    if s.plateStored a then { s with memErr := tput [] s.memErr a (toggleSymbol (tget [] s.memErr a) h.2.1 h.2.2) }
    else s) s

/-- What a sector's decode delivers: its 32 bytes, how many symbols were corrected, whether it is uncorrectable. A sector of
an invalid plate reads as zeros and decodes nothing (R232). -/
def State.readSector (s : State) (a : Nat) : List Byte × Nat × Bool :=
  if s.plateValid a then
    let d := rsDecode (tget false s.poison a) (tget [] s.memErr a)
    (xorSymbols (readBytes s.mem a 32) d.left, d.fixed, d.bad)
  else (List.replicate 32 0, 0, false)

/-- Write a whole sector's bytes, re-encoded (R243), filling its plate first where it is invalid (R233). Outside HBM and the populated
part of the slow tier nothing is stored (R203). -/
def State.writeSector (s : State) (a : Nat) (bytes : List Byte) : State :=
  let a := sectorOf a
  if !s.memOk a then s
  else
    let s := s.fillPlate a
    { s with mem := writeBytes s.mem a bytes
             memErr := terase s.memErr a
             poison := terase s.poison a }

/-- Bytes of a masked write that fall into a sector, by their place in it. -/
def sliceMask (a : Nat) (bs : List (Option Byte)) (sec : Nat) : List (Option Byte) :=
  (List.range 32).map fun i => if a ≤ sec + i then (bs.getD (sec + i - a) none) else none

/-- Merge masked bytes over bytes. -/
def mergeMask : List Byte → List (Option Byte) → List Byte
  | _ :: t, some v :: u => v :: mergeMask t u
  | b :: t, none :: u => b :: mergeMask t u
  | l, _ => l

/-- Totals of decodes: corrected, and the sectors found uncorrectable. -/
structure Decodes where
  fixed : Nat := 0
  bad : List Nat := []
  twoSym : List Nat := []
  deriving DecidableEq, Repr

/-- Read a byte range sector by sector (R222, R242): data, or none where a sector is uncorrectable, and the decodes. -/
def State.readMem (s : State) (a len : Nat) : Option (List Byte) × Decodes :=
  let secs := sectorsOf a len
  let rs := secs.map fun x => (x, s.readSector x)
  let d : Decodes :=
    { fixed := (rs.filter fun r => decide (r.2.2.1 ≠ 0)).length
      bad := (rs.filter fun r => r.2.2.2).map Prod.fst
      twoSym := (rs.filter fun r => decide (r.2.2.1 = 2)).map Prod.fst }
  let bytes := rs.flatMap fun r => r.2.1
  (if d.bad = [] then some ((bytes.drop (a % 32)).take len) else none, d)

/-- Write masked bytes sector by sector (R223, R243): a partial sector is read and corrected first, and is not written when
it is uncorrectable. -/
def State.writeMem (s : State) (a : Nat) (bs : List (Option Byte)) : State × Decodes :=
  (sectorsOf a bs.length).foldl (fun (acc : State × Decodes) sec =>
    let m := sliceMask a bs sec
    if m.all Option.isNone then acc
    else if m.all Option.isSome then (acc.1.writeSector sec (mergeMask (List.replicate 32 0) m), acc.2)
    else
      let r := acc.1.readSector sec
      if r.2.2 then (acc.1, { acc.2 with bad := acc.2.bad ++ [sec] })
      else (acc.1.writeSector sec (mergeMask r.1 m), { acc.2 with fixed := acc.2.fixed + b2n (r.2.1 ≠ 0) }))
    (s, {})

/-! ### Local and instruction stores -/

/-- The eight bytes of a local-store word. -/
def lsWord (c : Cluster) (w : Nat) : List Byte := readBytes c.ls (8 * w) 8

/-- What a local-store word's decode delivers (R237). -/
def lsDecode (c : Cluster) (w : Nat) : Nat × WordDec :=
  let d := secded (tget [] c.lsErr w)
  (leNat (lsWord c w) ^^^ d.mask, d)

/-- Words of a byte range, rising. -/
def lsWords (a len : Nat) : List Nat :=
  if len = 0 then [] else (List.range ((a + len - 1) / 8 - a / 8 + 1)).map fun i => a / 8 + i

/-- A local-store read: bytes, decodes that corrected, decodes that were uncorrectable, address of the first such word. -/
structure LsRead where
  bytes : List Byte := []
  fixed : Nat := 0
  bads : Nat := 0
  bad : Option Nat := none
  deriving DecidableEq, Repr

/-- Read local-store bytes (R242): every word touched is decoded once. -/
def lsRead (c : Cluster) (a len : Nat) : LsRead :=
  let ds := (lsWords a len).map fun w => (w, lsDecode c w)
  { bytes := ((ds.flatMap fun d => leBytes 8 d.2.1).drop (a % 8)).take len
    fixed := (ds.filter fun d => d.2.2.fixed).length
    bads := (ds.filter fun d => d.2.2.bad).length
    bad := (ds.find? fun d => d.2.2.bad).map fun d => 8 * d.1 }

/-- A local-store write: the cluster after it, decodes that corrected, address of the word it stopped at. -/
structure LsWrite where
  cl : Cluster
  fixed : Nat := 0
  bad : Option Nat := none
  deriving DecidableEq, Repr

/-- Bits a write covers of a word (from pairs of value and bit mask) and the value over old bytes. -/
def lsMerge (old : List Byte) (bs : List (Byte × Byte)) : List Byte :=
  match old, bs with
  | o :: t, (v, m) :: u => ((v &&& m) ||| (o &&& ~~~m)) :: lsMerge t u
  | l, _ => l

/-- The part of a write (value, bit mask by byte) that falls into a word. -/
def lsSlice (a : Nat) (bs : List (Byte × Byte)) (w : Nat) : List (Byte × Byte) :=
  (List.range 8).map fun i => if a ≤ 8 * w + i then bs.getD (8 * w + i - a) (0, 0) else (0, 0)

/-- Write one word whole, re-encoded. -/
def lsPutWord (c : Cluster) (w : Nat) (bytes : List Byte) : Cluster :=
  { c with ls := writeBytes c.ls (8 * w) bytes, lsErr := terase c.lsErr w }

/-- Write local-store bytes under bit masks (R243): a word not wholly covered is decoded and merged; an uncorrectable one
is not written and stops the write. -/
def lsWrite (c : Cluster) (a : Nat) (bs : List (Byte × Byte)) : LsWrite :=
  (lsWords a bs.length).foldl (fun (r : LsWrite) w =>
    if r.bad.isSome then r
    else
      let m := lsSlice a bs w
      if m.all fun b => b.2 == 0 then r
      else if m.all fun b => b.2 == 0xFF then { r with cl := lsPutWord r.cl w (m.map Prod.fst) }
      else
        let d := lsDecode r.cl w
        if d.2.bad then { r with bad := some (8 * w) }
        else { cl := lsPutWord r.cl w (lsMerge (leBytes 8 d.1) m), fixed := r.fixed + b2n d.2.fixed, bad := none })
    { cl := c }

/-- Whole bytes as a write. -/
def fullMask (l : List Byte) : List (Byte × Byte) := l.map fun b => (b, 0xFF)

/-- An instruction word and its decode (R135, R237). -/
def fetchWord (c : Cluster) (pc : Nat) : W64 × WordDec :=
  let d := secded (tget [] c.istoreErr pc)
  (tget 0 c.istore pc ^^^ BitVec.ofNat 64 d.mask, d)

/-- Let upsets strike a cluster's stores (R237). A latch that changes does not change its row's parity bit (R111). -/
def Cluster.strike (c : Cluster) (u : Upsets) : Cluster :=
  { c with
    istoreErr := toggleBits c.istoreErr u.istore
    lsErr := toggleBits c.lsErr u.ls
    arr := { c.arr with latch := u.latch.foldl (fun t h => tput 0 t h.1 (tget 0 t h.1 ^^^ BitVec.ofNat 22 (2 ^ h.2))) c.arr.latch } }

end Sys2Proof.Machine
end

