-- ==== Sys2Proof/Machine/Ops.lean ====
section
/-! DEFINITION. Named operations over the units of the package: which die serves what (R434, R442), tokens (R149, R150),
reports and records on their way to the crown (R445, R469, R572), dross counters (R473), requests on their way to a
sorter (R204, R217). Whether a fault is handled, logged and broadcast is the crown's work (Machine/Restart.lean). -/
namespace Sys2Proof.Machine

/-- The answer of every command that the block takes: it goes on. -/
abbrev Out := Host.Outcome State Fault Refusal

/-- Physical position that serves logical tile t (R434, R442); before a mapping exists, T(6n + j) stands at P(7n + j). -/
def State.phys (s : State) (t : Nat) : Nat :=
  let n := t / 6
  let m := (s.hub n).tileMap
  match (List.range 7).find? fun k => let e := tget (false, false, 0) m k; e.1 && e.2.2 == t % 6 with
  | some k => 7 * n + k
  | none => 7 * n + t % 6

/-- Logical tile that a physical position serves, or none for a spare (R434, R442). -/
def State.logical (s : State) (p : Nat) : Option Nat :=
  let e := tget (false, false, 0) (s.hub (p / 7)).tileMap (p % 7)
  if e.1 then some (6 * (p / 7) + e.2.2) else none

/-- The tile die of a logical tile. -/
def State.ltile (s : State) (t : Nat) : Tile := s.tile (s.phys t)

/-- Change the tile die of a logical tile. -/
def State.updLtile (s : State) (t : Nat) (f : Tile → Tile) : State := s.updTile (s.phys t) f

/-- A cluster of a tile. -/
def Tile.cluster (x : Tile) (k : Nat) : Cluster := tget {} x.clusters k

/-- Replace a cluster of a tile. -/
def Tile.setCluster (x : Tile) (k : Nat) (c : Cluster) : Tile := { x with clusters := tset x.clusters k c }

/-- A cluster of a logical tile. -/
def State.cluster (s : State) (t k : Nat) : Cluster := (s.ltile t).cluster k

/-- Replace a cluster of a logical tile. -/
def State.setCluster (s : State) (t k : Nat) (c : Cluster) : State := s.updLtile t fun x => x.setCluster k c

/-- Change a cluster of a logical tile. -/
def State.updCluster (s : State) (t k : Nat) (f : Cluster → Cluster) : State := s.setCluster t k (f (s.cluster t k))

/-- A context of a cluster. -/
def Cluster.ctx (c : Cluster) (x : Nat) : Ctx := tget {} c.ctxs x

/-- Replace a context. -/
def Cluster.setCtx (c : Cluster) (x : Nat) (v : Ctx) : Cluster := { c with ctxs := tset c.ctxs x v }

/-- An MV half-unit of a tile. -/
def Tile.mv (x : Tile) (r : Nat) : MvSt := tget {} x.mvs r

/-- Replace an MV half-unit. -/
def Tile.setMv (x : Tile) (r : Nat) (m : MvSt) : Tile := { x with mvs := tset x.mvs r m }

/-- A stream engine of a tile. -/
def Tile.engine (x : Tile) (e : Nat) : Engine := tget {} x.engines e

/-- Replace a stream engine. -/
def Tile.setEngine (x : Tile) (e : Nat) (v : Engine) : Tile := { x with engines := tset x.engines e v }

/-- A mould list of a tile. -/
def Tile.run (x : Tile) (l : Nat) : ListRun := tget {} x.lists l

/-- Replace a mould list. -/
def Tile.setRun (x : Tile) (l : Nat) (v : ListRun) : Tile := { x with lists := tset x.lists l v }

/-- A mould list of a hub. -/
def Hub.run (x : Hub) (l : Nat) : ListRun := tget {} x.lists l

/-- Replace a mould list of a hub. -/
def Hub.setRun (x : Hub) (l : Nat) (v : ListRun) : Hub := { x with lists := tset x.lists l v }

/-- A fault stops a mould list of a tile, or of a hub: nothing more of it starts in the step (R445). -/
def Tile.stopList (x : Tile) (l : Nat) : Tile := x.setRun l { x.run l with stopped := true }
def Hub.stopList (x : Hub) (l : Nat) : Hub := x.setRun l { x.run l with stopped := true }

/-- A port of a hub. -/
def Hub.port (x : Hub) (m : Nat) : Port := tget {} x.ports m

/-- Replace a port. -/
def Hub.setPort (x : Hub) (m : Nat) (v : Port) : Hub := { x with ports := tset x.ports m v }

/-- A channel of a hub. -/
def Hub.chan (x : Hub) (c : Nat) : Chan := tget {} x.chans c

/-- Replace a channel. -/
def Hub.setChan (x : Hub) (c : Nat) (v : Chan) : Hub := { x with chans := tset x.chans c v }

/-- An endpoint of a hub. -/
def Hub.ep (x : Hub) (e : Nat) : Endpoint := tget {} x.eps e

/-- Replace an endpoint. -/
def Hub.setEp (x : Hub) (e : Nat) (v : Endpoint) : Hub := { x with eps := tset x.eps e v }

/-- Change a port Hn.Pm. -/
def State.updPort (s : State) (h m : Nat) (f : Port → Port) : State := s.updHub h fun x => x.setPort m (f (x.port m))

/-- A port Hn.Pm. -/
def State.port (s : State) (h m : Nat) : Port := (s.hub h).port m

/-- Change the crown's job state. -/
def State.updCrown (s : State) (f : Crown → Crown) : State := { s with crown := f s.crown }

/-! ### The job -/

/-- The pattern header, or an empty one (R480). -/
def State.header (s : State) : Header := s.startup.header.getD {}

/-- The job seed K (R61, R480). -/
def State.seed (s : State) : W64 := s.header.seed

/-- The step number of records: the open step, or C + 1 when none is open (R247, R572). -/
def State.stepNo (s : State) : Nat :=
  match s.crown.openStep with
  | some o => o.step
  | none => s.crown.gen + 1

/-- The next free value (a value the spec leaves open and no operand decides). -/
def State.drawFree (s : State) : W64 × State := (Config.freeWord s.free, { s with free := s.free + 1 })

/-! ### Dross counters -/

/-- Largest count of a class: 32 bits for class 0x10, else 16 (R473). -/
def drossMax (cls : Nat) : Nat := if cls = 0x10 then 0xFFFFFFFF else 0xFFFF

/-- Add to a saturating counter (R473). -/
def drossAdd (t : Tbl Nat) (cls n : Nat) : Tbl Nat := tput 0 t cls (min (drossMax cls) (tget 0 t cls + n))

/-- Add to a counter of a tile die by position. -/
def State.tileDross (s : State) (p cls n : Nat) : State :=
  if n = 0 then s else s.updTile p fun x => { x with dross := drossAdd x.dross cls n }

/-- Add to a counter of a hub. -/
def State.hubDross (s : State) (h cls n : Nat) : State :=
  if n = 0 then s else s.updHub h fun x => { x with dross := drossAdd x.dross cls n }

/-- Add to a counter of the crown. -/
def State.crownDross (s : State) (cls n : Nat) : State :=
  s.updCrown fun c => { c with dross := drossAdd c.dross cls n }

/-! ### D2D channels, and what the crown's messages go over -/

/-- The hub at the far end of a hub-hub channel (R418), by the placement of flasks on the panel. -/
def chanPeer (h c : Nat) : Option Nat :=
  if c = 7 || c = 8 then (if h % 4 = 0 then none else some (h - 1))
  else if c = 9 || c = 10 then (if h % 4 = 3 then none else some (h + 1))
  else if c = 11 || c = 12 then some ((h + 4) % 8)
  else none

/-- Number of a hub-hub channel at its far end: dir 0 and 1 face each other. -/
def farChan (c : Nat) : Nat := if c = 7 || c = 8 then c + 2 else if c = 9 || c = 10 then c - 2 else c

/-- Whether a hub has a channel (R418). -/
def hasChan (h c : Nat) : Bool := decide (c < 7) || c == 13 || (chanPeer h c).isSome

/-- Groups of one direction, and how many of them may be active (R416). -/
def chanGroups (c : Nat) : Nat := if c = 13 then 4 else 102
def chanMax (c : Nat) : Nat := if c = 13 then 2 else 96

/-- Good groups, the active ones among them and the spares (R419). -/
def ChanDir.good (d : ChanDir) (c : Nat) : List Nat := (List.range (chanGroups c)).filter fun g => decide (g ∉ d.out)
def ChanDir.active (d : ChanDir) (c : Nat) : List Nat := (d.good c).take (chanMax c)
def ChanDir.spares (d : ChanDir) (c : Nat) : List Nat := (d.good c).drop (chanMax c)

/-- Whether a direction has failed (R428). -/
def ChanDir.failed (d : ChanDir) (c : Nat) : Bool := if c = 13 then d.good c == [] else decide ((d.good c).length < 80)

/-- Whether a channel has failed (R428). -/
def Chan.failed (x : Chan) (c : Nat) : Bool := x.tx.failed c || x.rx.failed c

/-- Whether messages between the crown and a die get through (R17, R428): they go over the crown line of the die's hub, and to and
from a tile over its tile channel as well, through the hub. -/
def State.crownReach (s : State) (d : Nat) : Bool :=
  let x := s.hub (if d < 48 then d / 6 else d - 48)
  let k := s.phys d % 7
  d == 56 || (!(x.chan 13).failed 13 && (decide (48 ≤ d) || !(x.chan k).failed k))

/-! ### Reports and records -/

/-- A body of fields, from bit 0 up (R472). -/
def body (fs : List (Nat × Nat)) : BitVec 298 := BitVec.ofNat 298 (packFields fs)

/-- Send a fault report to the crown (R445): it arrives by a FAULT_REPORT command. -/
def State.report (s : State) (die code : Nat) (fs : List (Nat × Nat)) (type : Option Nat := none) : State :=
  s.updCrown fun c => { c with reports := c.reports ++ [{ die := die, code := code, body := body fs, type := type }] }

/-- Send a record that is no fault to the crown (R469): it arrives by an EVENT_RECORD command. -/
def State.record (s : State) (die type : Nat) (fs : List (Nat × Nat)) : State :=
  s.updCrown fun c => { c with records := c.records ++ [{ type := type, die := die, body := body fs }] }

/-- DIE of a hub (R446). -/
def hubDie (h : Nat) : Nat := 48 + h

/-- Read the words of a hub SRAM structure that are in error among those a test names (R237, R250): a corrected word counts; an
uncorrectable one counts and is a fault whose hub record names structure and word (R245, R247). True where one was uncorrectable. -/
def State.readSram (s : State) (h st : Nat) (p : Nat → Bool) : State × Bool :=
  let ws := ((s.hub h).sramErr.map Prod.fst).filter fun k => k / 2 ^ 24 == st && p (k % 2 ^ 24)
  ws.foldl (fun (acc : State × Bool) k =>
    let d := (s.hub h).sramDecode st (k % 2 ^ 24)
    if d.bad || (st ≠ 0 && decide (d.mask ≠ 0)) then
      ((acc.1.hubDross h 0x09 1).report (hubDie h) 0x03
        [(64, s.stepNo), (3, h), (4, 0x8), (1, 0), (33, k % 2 ^ 24), (2, st)] (some 0x06), true)
    else (acc.1.hubDross h 0x08 (b2n d.fixed), acc.2)) (s, false)

/-- Words of a hub SRAM structure that are rewritten hold no error afterwards (R243). -/
def Hub.writeSram (x : Hub) (st : Nat) (p : Nat → Bool) : Hub :=
  { x with sramErr := x.sramErr.filter fun e => !(e.1 / 2 ^ 24 == st && p (e.1 % 2 ^ 24)) }

/-- Read the bitmap words of the plates of a byte range of memory. -/
def State.readBitmap (s : State) (a len : Nat) : State × Bool :=
  match addrHome a with
  | none => (s, false)
  | some (h, slow, o) =>
    let ps := (s.hub h).badBitmap slow (o / 4096) ((o + len - 1) / 4096 - o / 4096 + 1)
    if ps = [] then (s, false) else s.readSram h 0 fun w => decide (w ∈ ps.map (bitmapWord slow))

/-- Add a sector to a hub's map-out list (R256): one listed already is not listed again, and a full list sets LIST_FULL. -/
def Hub.listSector (x : Hub) (slow : Bool) (sector reason : Nat) : Hub :=
  if x.mapout.any fun e => e.slow == slow && e.sector == sector then x
  else if 64 ≤ x.mapout.length then { x with fetListFull := true }
  else
    let y : Hub := { x with mapout := x.mapout ++ [{ slow := slow, reason := reason, sector := sector }] }
    y.writeSram 2 (· == x.mapout.length)

/-- List an uncorrectable sector by address (R245), and note it for BANK_BAD (R453). -/
def State.listSector (s : State) (a reason : Nat) : State :=
  match addrHome a with
  | none => s
  | some (h, slow, o) => (s.readSram h 2 fun w => decide (w < (s.hub h).mapout.length)).1.updHub h fun x => { x.listSector slow (o / 32) reason with badSeen := if reason = 1 then x.badSeen else addOnce x.badSeen a }

/-- Count a read's or write's decodes at the owning hub (R250) and list its uncorrectable sectors (R245). -/
def State.countDecodes (s : State) (a : Nat) (d : Decodes) (reason : Nat) : State :=
  match addrHome a with
  | none => s
  | some (h, slow, _) =>
    let s := s.hubDross h (if slow then 2 else 0) d.fixed
    let s := s.hubDross h (if slow then 3 else 1) d.bad.length
    d.bad.foldl (fun s x => s.listSector x reason) s

/-- The hub record of an agent at a sector (R247), as an UNCORRECTABLE fault of the owning hub. -/
def State.hubRecord (s : State) (h agent a : Nat) : State :=
  let place := match addrHome a with
    | some (_, slow, o) => (b2n slow, o / 32)
    | none => (0, 0)
  s.report (hubDie h) 0x03
    [(64, s.stepNo), (3, h), (4, agent), (1, place.1), (33, place.2), (2, 0)] (some 0x06)

/-! ### Tokens -/

/-- Count of a token of a tile. -/
def State.token (s : State) (t tok : Nat) : Nat := (tget 0 (s.ltile t).tokens tok).toNat

/-- A signal to a token of a tile: past 0xFFFF_FFFF it is the TOKEN fault (R149, R150). -/
def State.signal (s : State) (t tok n : Nat) : State :=
  let c := s.token t tok + n
  if 0xFFFFFFFF < c then s.report t 0x09 [(64, s.stepNo), (6, t), (8, tok)]
  else s.updLtile t fun x => { x with tokens := tput 0 x.tokens tok (BitVec.ofNat 32 c) }

/-- Count of a token of a hub (R286). -/
def State.hubToken (s : State) (h tok : Nat) : Nat := (tget 0 (s.hub h).tokens tok).toNat

/-- A signal to a token of a hub (R150, R286). -/
def State.signalHub (s : State) (h tok n : Nat) : State :=
  let c := s.hubToken h tok + n
  if 0xFFFFFFFF < c then s.report (hubDie h) 0x09 [(64, s.stepNo), (6, hubDie h), (8, tok)]
  else s.updHub h fun x => { x with tokens := tput 0 x.tokens tok (BitVec.ofNat 32 c) }

/-- Send a signal to a token of a die: one of the signalling die itself takes effect at once, one of another die travels over
the control ways and arrives by a TOKEN_SIGNAL command (R273). Dies 0 to 47 are tiles, 48 to 55 hubs. -/
def State.sendSignal (s : State) (src dst tok n : Nat) : State :=
  if src = dst then (if dst < 48 then s.signal dst tok n else s.signalHub (dst - 48) tok n)
  else s.updCrown fun c => { c with signals := c.signals ++ [(dst, tok, n)] }

/-! ### Requests -/

/-- The ingress queues of a sorter (R217): 0 to 6 the tile channels and 7 to 12 the hub-hub channels by their number (the two channels
of an adjacency are one set, R421, and use the lower number), then the queues of the hub's own agents. -/
def ingressTile (p : Nat) : Nat := p % 7
def ingressMould : Nat := 13
def queueReduce : Nat := 14
def queueUpdate : Nat := 15
def queuePort (m : Nat) : Nat := 16 + m
def queueStream : Nat := 18
def queueStatic : Nat := 19
def queueFettle : Nat := 20

/-- The hubs a walk along a row passes after the first, from column a to column b. -/
def rowPath (row a b : Nat) : List Nat :=
  (List.range (max a b - min a b)).map fun i => 4 * row + (if a < b then a + i + 1 else a - i - 1)

/-- The route of R429 while no adjacency has failed: along the own row to the destination's column, then across the rows. -/
def plainRoute (a b : Nat) : List Nat := rowPath (a / 4) (a % 4) (b % 4) ++ (if a / 4 = b / 4 then [] else [b])

/-- The hubs that traffic from one hub to another passes, the last of them the destination (R429), as fixed at mould load or at the
last restart. -/
def State.route (s : State) (a b : Nat) : List Nat := tget (plainRoute a b) s.loaded.hubRoutes (8 * a + b)

/-- Channel of hub b towards an adjacent hub a (R418), the lower of the two. -/
def chanToward (b a : Nat) : Nat := if a / 4 ≠ b / 4 then 11 else if a < b then 7 else 9

/-- The ingress queue in which a request from hub src arrives at its owner (R204): its own at home, else that of the hub-hub channel
its route comes in on. Mould-list reads have their own queue (R217). -/
def State.ingressFrom (s : State) (src owner queue : Nat) : Nat :=
  if owner = src || queue = ingressMould then queue
  else chanToward owner (lget src (src :: s.route src owner) ((s.route src owner).length - 1))

/-- Put a request into an ingress queue of the hub that owns its address (R204, R217). -/
def State.pushReq (s : State) (src : Nat) (queue : Nat) (r : Req) : State :=
  match addrHome r.addr with
  | none => s
  | some (h, _, _) =>
    let q := s.ingressFrom src h queue
    s.updHub h fun x => { x with ingress := tset x.ingress q (tget [] x.ingress q ++ [r]) }

end Sys2Proof.Machine
end

