-- ==== Sys2Proof/Machine/Clock.lean ====
section
/-! DEFINITION. The REF_CLK_100 cycle of the time counter (R527): what the block does when no command waits. -/
namespace Sys2Proof.Machine

/-- Whether the crown runs: its rails are up and RST_N is released (R475). -/
def State.crownOn (s : State) : Bool := s.power.rails = .up && s.rstN

/-- One REF_CLK_100 cycle: the counter adds 10 ns plus the correction, in units of 2^-16 ns (R527). -/
def Time.cycle (t : Time) : Time :=
  { t with ticks := t.ticks + 1, counter := (((t.counter : Int) + 655360 + t.corr) % ((2 ^ 80 : Nat) : Int)).toNat }

/-- What step does on an empty queue (DESIGN CHOICE: the table has no row for the clock's cycle). -/
def State.idle (s : State) : State := if s.crownOn then { s with time := s.time.cycle } else s

/-- The counter's whole nanoseconds. -/
def Time.ns (t : Time) : Nat := t.counter / 2 ^ 16

end Sys2Proof.Machine
end

