-- ==== Sys2Proof/Machine/Sfu.lean ====
section
/-! DEFINITION. The special functions (R161, R162), correctly rounded to nearest even: each transcendental value is
enclosed in fixed point and the enclosure is narrowed until both its ends round to one binary32 value. -/
namespace Sys2Proof.Machine

/-- A function's result: the exact-rounded bits and the conditions. -/
abbrev SfuOut := Rounded

/-- Sum of t / 9^k-type series: sum over k of term_k / (2k + 1), where term_{k+1} = term_k * z2 / 2^p. -/
def atanhGo (p z2 : Nat) : Nat → Nat → Nat → Nat
  | 0, _, _ => 0
  | n + 1, k, t => if t = 0 then 0 else t / (2 * k + 1) + atanhGo p z2 n (k + 1) ((t * z2) >>> p)

/-- 2 atanh(z) for z = zn / 2^p, in units of 2^-p. -/
def atanh2 (p zn : Nat) : Nat := 2 * atanhGo p ((zn * zn) >>> p) p 0 zn

/-- ln 2 in units of 2^-p. -/
def ln2Fix (p : Nat) : Nat := atanh2 p ((1 <<< p) / 3)

/-- Sum of r^k / k! in units of 2^-p, from term t at index k. -/
def expGo (p r : Nat) : Nat → Nat → Nat → Nat
  | 0, _, _ => 0
  | n + 1, k, t => if t = 0 then 0 else t + expGo p r n (k + 1) (((t * r) >>> p) / (k + 1))

/-- e^(r / 2^p) in units of 2^-p, for r below 2^p. -/
def expFix (p r : Nat) : Nat := expGo p r (p + 8) 0 (1 <<< p)

/-- atan(1/n) in units of 2^-p, alternating. -/
def atanInvGo (n2 : Nat) : Nat → Nat → Int → Int
  | 0, _, _ => 0
  | f + 1, k, t => if t = 0 then 0 else t / (2 * k + 1) - atanInvGo n2 f (k + 1) (t / n2)

/-- pi in units of 2^-p (Machin). -/
def piFix (p : Nat) : Nat :=
  let one : Int := ((1 <<< p : Nat) : Int)
  (16 * atanInvGo 25 p 0 (one / 5) - 4 * atanInvGo 57121 p 0 (one / 239)).toNat

/-- Round an enclosure [a - err, a + err] x 2^e of a value of a given sign to binary32: none when its ends differ. -/
def roundEnclosure (neg : Bool) (a err : Nat) (e : Int) : Option Rounded :=
  let lo := roundNear .f32 (.fin neg (a - err) e)
  let hi := roundNear .f32 (.fin neg (a + err) e)
  if lo = hi then some lo else none

/-- Try rising precisions; the last one stands when none separates. -/
def narrow (f : Nat → Bool × Nat × Int) : List Nat → Rounded
  | [] => {}
  | [p] => let r := f p; roundNear .f32 (.fin r.1 r.2.1 r.2.2)
  | p :: q :: ps => let r := f p; match roundEnclosure r.1 r.2.1 4096 r.2.2 with
    | some x => x
    | none => narrow f (q :: ps)

/-- The precisions tried. -/
def precisions : List Nat := [128, 256, 512, 1024]

/-- e^x for x = num / 2^p (signed), as significand in units of 2^-p and power of two. -/
def expSigned (p : Nat) (x : Int) : Nat × Int :=
  let l := ln2Fix p
  let n := x / (l : Int)
  (expFix p (x - n * l).toNat, n)

/-- A signed value in units of 2^-p, floored toward zero. -/
def toFix (p : Nat) (neg : Bool) (m : Nat) (e : Int) : Int :=
  let v : Int := (scaleFloor m (e + p) : Nat)
  if neg then -v else v

/-- A value as an integer, when it is one. -/
def asInt (neg : Bool) (m : Nat) (e : Int) : Option Int :=
  if 0 ≤ e then some (signedAt neg m e 0)
  else if m % 2 ^ (-e).toNat = 0 then some (if neg then -(m >>> (-e).toNat : Nat) else (m >>> (-e).toNat : Nat)) else none

/-- 2^x (R161, R162). -/
def sfuExp2 : Num → SfuOut
  | .nan => { bits := Fmt.f32.nan }
  | .inf s => if s then {} else { bits := Fmt.f32.infCode false }
  | .fin s m e =>
    if m = 0 then { bits := 0x3F800000 }
    else if !s && decide (7 ≤ floorLog2 m e) then { bits := Fmt.f32.infCode false, ovf := true }
    else if s && decide (8 ≤ floorLog2 m e) then {}
    else match asInt s m e with
      | some i => roundNear .f32 (.fin false 1 i)
      | none => narrow (fun p =>
          let x := toFix p s m e
          let n := x / ((1 <<< p : Nat) : Int)
          let f := (x - n * ((1 <<< p : Nat) : Int)).toNat
          (false, expFix p ((f * ln2Fix p) >>> p), n - p)) precisions

/-- log2 x (R161, R162). -/
def sfuLog2 : Num → SfuOut
  | .nan => { bits := Fmt.f32.nan }
  | .inf s => if s then { bits := Fmt.f32.nan, inv := true } else { bits := Fmt.f32.infCode false }
  | .fin s m e =>
    if m = 0 then { bits := Fmt.f32.infCode true }
    else if s then { bits := Fmt.f32.nan, inv := true }
    else
      let k := Nat.log2 m
      let ex := (k : Int) + e
      if m = 1 <<< k then roundNear .f32 (Num.ofInt ex)
      else narrow (fun p =>
        let one := 1 <<< p
        -- m / 2^k in [1, 2): z = (f - 1) / (f + 1)
        let z := ((m - (1 <<< k)) <<< p) / (m + (1 <<< k))
        let l := (atanh2 p z <<< p) / ln2Fix p
        let v : Int := ex * (one : Int) + (l : Int)
        (decide (v < 0), v.natAbs, -p)) precisions

/-- 1 / x (R161, R162): of zero an infinity, raising nothing. -/
def sfuRcp : Num → SfuOut
  | .nan => { bits := Fmt.f32.nan }
  | .inf s => { bits := fpCode Fmt.f32.spec s 0 0 }
  | .fin s m e =>
    if m = 0 then { bits := Fmt.f32.infCode s }
    else fpDiv (.fin false 1 0) (.fin s m e)

/-- 1 / sqrt x (R161, R162). -/
def sfuRsq : Num → SfuOut
  | .nan => { bits := Fmt.f32.nan }
  | .inf s => if s then { bits := Fmt.f32.nan, inv := true } else {}
  | .fin s m e =>
    if m = 0 then { bits := Fmt.f32.infCode s }
    else if s then { bits := Fmt.f32.nan, inv := true }
    else
      -- 1/(m x 2^e): an even power of two over m, floored; the floor of the root is unchanged by it
      let k := 2 * 80 + (if e % 2 = 0 then 0 else 1)
      let n := (1 <<< k) / m
      let q := isqrt n
      let exact := q * q * m == 1 <<< k
      roundNear .f32 (.fin false (2 * q + b2n !exact) (-(e + k) / 2 - 1))

/-- tanh x (R161, R162). -/
def sfuTanh : Num → SfuOut
  | .nan => { bits := Fmt.f32.nan }
  | .inf s => { bits := if s then 0xBF800000 else 0x3F800000 }
  | .fin s m e =>
    if m = 0 then { bits := fpCode Fmt.f32.spec s 0 0 }
    else if 4 ≤ floorLog2 m e then { bits := if s then 0xBF800000 else 0x3F800000 }
    else narrow (fun p0 =>
      let p := p0 + 2 * (-(floorLog2 m e)).toNat
      let one := 1 <<< p
      let w := expSigned p (toFix p false m (e + 1))
      let v := w.1 <<< w.2.toNat
      (s, ((v - one) <<< p) / (v + one), -p)) precisions

/-- 1 / (1 + e^-x) (R161, R162). -/
def sfuSigm : Num → SfuOut
  | .nan => { bits := Fmt.f32.nan }
  | .inf s => if s then {} else { bits := 0x3F800000 }
  | .fin s m e =>
    if m = 0 then { bits := 0x3F000000 }
    else if 7 ≤ floorLog2 m e then (if s then {} else { bits := 0x3F800000 })
    else narrow (fun p =>
      -- with w = e^-|x| = a x 2^n, n <= 0: 1 / (1 + w) for x > 0, w / (1 + w) for x < 0
      let w := expSigned p (-(toFix p false m e))
      let k := (-w.2).toNat
      let den := (1 <<< (p + k)) + w.1
      if s then (false, (w.1 <<< p) / (den >>> k), w.2 - p)
      else (false, (1 <<< (2 * p + k)) / den, -p)) precisions

/-- Sum over n of (-1)^n x^(2n+1) / (n! (2n+1)) in units of 2^-p; t is x^(2n+1) / n!. -/
def erfGo (p x2 : Nat) : Nat → Nat → Nat → Int
  | 0, _, _ => 0
  | f + 1, n, t => if t = 0 then 0 else (t / (2 * n + 1) : Nat) - erfGo p x2 f (n + 1) (((t * x2) >>> p) / (n + 1))

/-- erf x (R161, R162). -/
def sfuErf : Num → SfuOut
  | .nan => { bits := Fmt.f32.nan }
  | .inf s => { bits := if s then 0xBF800000 else 0x3F800000 }
  | .fin s m e =>
    if m = 0 then { bits := fpCode Fmt.f32.spec s 0 0 }
    else if 2 ≤ floorLog2 m e then { bits := if s then 0xBF800000 else 0x3F800000 }
    else narrow (fun p0 =>
      let p := p0 + 64 + (-(floorLog2 m e)).toNat
      let x := (toFix p false m e).toNat
      let sum := (erfGo p ((x * x) >>> p) (2 * p) 0 x).toNat
      let rootPi := isqrt (piFix p <<< p)
      -- the guard bits keep the error of the alternating sum far below the enclosure
      (s, (((2 * sum) <<< p) / rootPi) >>> 24, 24 - p)) precisions

end Sys2Proof.Machine
end

