-- ==== Sys2Proof/Machine/Operands.lean ====
section
/-! DEFINITION. The operand forms of a thread instruction: the word's fields (R171), register kinds (R134, R175), the checks
of an encoding (R172 to R176), source and destination registers (R132, R133), formats of sources (R177), addresses
(R193 to R195) and draws (R160, R200). -/
namespace Sys2Proof.Machine

/-! ### Fields -/

/-- Fields of an instruction word (R171). -/
structure Word where
  opc : Nat
  dst : Nat
  s1 : Nat
  s2 : Nat
  s3 : Nat
  neg : Bool
  pred : Nat
  fmt : Nat
  mod : Nat
  deriving DecidableEq, Repr

/-- R171. -/
def Word.of (w : W64) : Word :=
  let n := w.toNat
  { opc := bits n 63 56, dst := bits n 55 50, s1 := bits n 49 44, s2 := bits n 43 38, s3 := bits n 37 32
    neg := bit n 31, pred := bits n 30 28, fmt := bits n 27 24, mod := bits n 23 0 }

/-- The kinds of register a field may name: none (the field is zero), a lane source (vector, or a scalar broadcast), a
vector, a scalar source (read-only registers included), a scalar register, a predicate, a vector or scalar register. -/
inductive Kind where
  | none | lanes | vec | scalar | sreg | pred | vecOrScalar
  deriving DecidableEq, Repr

/-- Whether a register code is of a kind (R134, R175). -/
def Kind.takes : Kind → Nat → Bool
  | .none, c => c == 0
  | .lanes, c => decide (c < 48 ∨ (56 ≤ c ∧ c < 63))
  | .vec, c => decide (c < 32)
  | .scalar, c => decide ((32 ≤ c ∧ c < 48) ∨ (56 ≤ c ∧ c < 63))
  | .sreg, c => decide (32 ≤ c ∧ c < 48)
  | .pred, c => decide (48 ≤ c ∧ c < 56)
  | .vecOrScalar, c => decide (c < 48)

/-- What an opcode uses of its word: the kinds of its register fields, the formats it takes, the MOD bits it uses, whether it
is predicated, over how many registers a vector operand runs, and whether the opcode is assigned at all. -/
structure Use where
  dst : Kind := .none
  s1 : Kind := .none
  s2 : Kind := .none
  s3 : Kind := .none
  fmts : List Nat := [0]
  mod : Nat := 0
  pred : Bool := true
  n : Nat := 1
  assigned : Bool := true
  deriving DecidableEq, Repr

/-- Trap causes (R202). -/
def illegalOpcode : Nat := 0x02
def illegalField : Nat := 0x03
def badRegister : Nat := 0x04
def readonlyWrite : Nat := 0x05
def misaligned : Nat := 0x06
def lsRange : Nat := 0x07
def memRange : Nat := 0x08
def lsUncorrectable : Nat := 0x09
def memUncorrectable : Nat := 0x0A
def pcRange : Nat := 0x0B
def kickOwner : Nat := 0x0C
def paramRange : Nat := 0x0D
def paramTwice : Nat := 0x0E
def tokenOverflow : Nat := 0x0F
def drawRange : Nat := 0x10

/-- Causes of a source field (R175, R176): an unused field that is not zero, a wrong kind, or a run past v31. -/
def srcCauses (k : Kind) (n c : Nat) : List Nat :=
  if k = .none then (if c = 0 then [] else [illegalField])
  else if !k.takes c then [badRegister]
  else if k = .vec && decide (32 < c + n) then [badRegister]
  else []

/-- Causes of a destination field (R175, R176): a read-only register is READONLY_WRITE. -/
def dstCauses (k : Kind) (n c : Nat) : List Nat :=
  if k = .none then (if c = 0 then [] else [illegalField])
  else if 56 ≤ c && c < 63 then [readonlyWrite]
  else if !k.takes c then [badRegister]
  else if k = .vec && decide (32 < c + n) then [badRegister]
  else []

/-- Every cause the encoding itself gives (R172, R173, R175, R176, R201). -/
def encodingCauses (u : Use) (w : Word) : List Nat :=
  (if u.assigned then [] else [illegalOpcode]) ++
  (if w.fmt ∈ u.fmts then [] else [illegalField]) ++
  (if w.mod &&& (0xFFFFFF ^^^ u.mod) = 0 then [] else [illegalField]) ++
  (if !u.pred && (w.neg || w.pred ≠ 0) then [illegalField] else []) ++
  dstCauses u.dst u.n w.dst ++ srcCauses u.s1 u.n w.s1 ++ srcCauses u.s2 u.n w.s2 ++ srcCauses u.s3 u.n w.s3

/-- The lowest of the causes that apply (R176). -/
def lowest : List Nat → Option Nat
  | [] => none
  | c :: t => match lowest t with | none => some c | some d => some (min c d)

/-! ### Registers -/

/-- A predicate register by code: p0 reads all ones (R133). -/
def readPred (x : Ctx) (c : Nat) : W16 := if c = 48 then 0xFFFF else tget 0 x.p (c - 48)

/-- Write a predicate register; a write to p0 is ignored (R133). -/
def writePred (x : Ctx) (c : Nat) (v : W16) : Ctx := if c = 48 then x else { x with p := tput 0 x.p (c - 48) v }

/-- Where an instruction runs: state, logical tile, cluster, context number, the context, its word. -/
structure TEnv where
  s : State
  t : Nat
  k : Nat
  c : Nat
  x : Ctx
  w : Word

/-- A scalar source: s0 to s15 and the read-only registers (R134, R175). -/
def TEnv.scalar (e : TEnv) (c : Nat) : W64 :=
  if c < 48 then tget 0 e.x.s (c - 32)
  else if c = 56 then BitVec.ofNat 64 e.c
  else if c = 57 then BitVec.ofNat 64 e.t
  else if c = 58 then BitVec.ofNat 64 e.k
  else if c = 59 then BitVec.ofNat 64 e.x.lidx
  else if c = 60 then BitVec.ofNat 64 e.s.stepNo
  else if c = 61 then e.x.op.setWidth 64
  else 0

/-- Lane i of a lane source: a vector lane, or a scalar's low 32 bits (R175). -/
def TEnv.lane (e : TEnv) (c i : Nat) : W32 := if c < 32 then tget 0 e.x.v (16 * c + i) else (e.scalar c).setWidth 32

/-- Write a scalar register. -/
def writeScalar (x : Ctx) (c : Nat) (v : W64) : Ctx := { x with s := tput 0 x.s (c - 32) v }

/-- Write one lane of a vector register. -/
def writeLane (x : Ctx) (r i : Nat) (v : W32) : Ctx := { x with v := tput 0 x.v (16 * r + i) v }

/-- The active lanes: the named predicate, inverted by NEG (R133, R172). -/
def TEnv.mask (e : TEnv) : W16 :=
  let p := readPred e.x (48 + e.w.pred)
  if e.w.neg then ~~~p else p

/-- Whether a lane is active. -/
def TEnv.active (e : TEnv) (i : Nat) : Bool := e.mask.getLsbD i

/-- The active lanes in rising order. -/
def TEnv.lanes (e : TEnv) : List Nat := (List.range 16).filter e.active

/-- Write the active lanes of a vector register (R133). -/
def TEnv.writeVec (e : TEnv) (x : Ctx) (r : Nat) (f : Nat → W32) : Ctx :=
  e.lanes.foldl (fun x i => writeLane x r i (f i)) x

/-- Write the active lanes' bits of a predicate register (R133, R179). -/
def TEnv.writePredLanes (e : TEnv) (x : Ctx) (c : Nat) (f : Nat → Bool) : Ctx :=
  let old := readPred x c
  let v := (List.range 16).foldl (fun n i =>
    n + b2n (if e.active i then f i else old.getLsbD i) * 2 ^ i) 0
  writePred x c (BitVec.ofNat 16 v)

/-! ### Formats of sources -/

/-- The format of a source by its MOD subfield: 0 the destination's, 1 F32, 2 BF16, 3 F16 (R177). -/
def srcFmt (dst : Fmt) (sub : Nat) : Fmt :=
  match sub with
  | 0 => dst
  | 1 => .f32
  | 2 => .bf16
  | _ => .f16

/-- Format of source j (0 to 2) of a vector floating-point instruction (R177). -/
def TEnv.srcFmt (e : TEnv) (j : Nat) : Fmt :=
  Machine.srcFmt ((Fmt.ofCode e.w.fmt).getD .f32) (bits e.w.mod (2 * j + 1) (2 * j))

/-- Source j's register code. -/
def Word.src (w : Word) (j : Nat) : Nat := match j with | 0 => w.s1 | 1 => w.s2 | _ => w.s3

/-- Lane i of source j as its exact value (R174, R177). -/
def TEnv.num (e : TEnv) (j i : Nat) : Num := decode (e.srcFmt j) (e.lane (e.w.src j) i).toNat

/-! ### Draws -/

/-- Draw number n of the context: class 0x04, lane LTILE x 1,024 + CLUSTER x 256 + CTX, the launch's operation id (R160). -/
def TEnv.draw (e : TEnv) (n : Nat) : W64 :=
  Machine.draw e.s.seed (chi 0x04 e.s.stepNo (e.t * 1024 + e.k * 256 + e.c)) (clo e.x.op n)

/-- Slice (i & 3) of draw c + (i >> 2), for lane i (R200). -/
def TEnv.drawSlice (e : TEnv) (i : Nat) : Nat := slice (e.draw (e.x.draws.toNat + i / 4)) (i % 4)

/-- Causes of consuming n draws (R200). -/
def TEnv.drawCauses (e : TEnv) (n : Nat) : List Nat := if 0xFFFFFFFF < e.x.draws.toNat + n then [drawRange] else []

/-! ### Addresses -/

/-- src1 + MOD[23:0] sign-extended, modulo 2^64 (R193). -/
def TEnv.lsAddr (e : TEnv) : Nat := wrap 64 ((e.scalar e.w.s1).toNat + sext 24 e.w.mod)

/-- Causes of a local-store access (R145, R146, R195). -/
def lsCauses (a len align : Nat) : List Nat :=
  (if a % align = 0 then [] else [misaligned]) ++ (if a + len ≤ 0x800000 then [] else [lsRange])

/-- Whether a byte range touches a hub-reserved area (R206, R213). -/
def State.reserved (s : State) (a len : Nat) : Bool :=
  s.loaded.placement.hubs.any fun p =>
    overlaps a len p.fl0.1 p.fl0.2 || overlaps a len p.fl1.1 p.fl1.2 || overlaps a len p.spill.1 p.spill.2 ||
    overlaps a len p.partner.1 (2 * p.partner.2)

/-- Whether every byte of a range is HBM or populated slow tier of one tier (R195). -/
def State.rangeOk (s : State) (a len : Nat) : Bool :=
  decide (a < 2 ^ 42) && s.memOk a && s.memOk (a + (len - 1)) && (decide (a < slowBase) == decide (a + (len - 1) < slowBase))

/-- Causes of a memory access (R195, R206). -/
def TEnv.memCauses (e : TEnv) (a len align : Nat) : List Nat :=
  (if a % align = 0 then [] else [misaligned]) ++
  (if e.s.rangeOk a len && !e.s.reserved a len then [] else [memRange])

/-- Address of MLD and MST: src1 + 64 x MOD[21:0] sign-extended (R194). -/
def TEnv.memAddr (e : TEnv) : Nat := wrap 64 ((e.scalar e.w.s1).toNat + 64 * sext 22 e.w.mod)

/-- Bytes of an element of a 32-, 16- or 8-bit format (R193, R155). -/
def elemSize (code : Nat) : Nat := ((Fmt.ofCode code).getD .f32).width / 8

/-- Address of lane i of an indexed access: s + size x offset_i (R155, R193). -/
def TEnv.idxAddr (e : TEnv) (i : Nat) : Nat :=
  wrap 64 ((e.scalar e.w.s1).toNat + (elemSize e.w.fmt * (e.lane e.w.s2 i).toNat : Nat))

/-- Compare kinds (R180): the result for two integers of a width; none for a reserved kind. -/
def intCompare (kind width : Nat) (a b : Nat) : Option Bool :=
  let x := sext width a
  let y := sext width b
  match kind with
  | 0x0 => some (decide (x = y))
  | 0x1 => some (decide (x ≠ y))
  | 0x2 => some (decide (x < y))
  | 0x3 => some (decide (x ≤ y))
  | 0x4 => some (decide (y < x))
  | 0x5 => some (decide (y ≤ x))
  | 0xA => some (decide (a < b))
  | 0xB => some (decide (a ≤ b))
  | 0xC => some (decide (b < a))
  | 0xD => some (decide (b ≤ a))
  | _ => none

/-- Compare kinds on floating-point values (R180): codes 0x0 to 0x5; with a NaN every kind but NE is false. -/
def fpCompare (kind : Nat) (a b : Num) : Bool :=
  if a = .nan || b = .nan then kind == 1
  else
    let c := a.cmp b
    match kind with
    | 0x0 => c == 0
    | 0x1 => c != 0
    | 0x2 => decide (c < 0)
    | 0x3 => decide (c ≤ 0)
    | 0x4 => decide (0 < c)
    | _ => decide (0 ≤ c)

end Sys2Proof.Machine
end

