-- ==== Sys2Proof/Machine/Flags.lean ====
section
/-! DEFINITION. Flag computations: conditions of thread instructions collected by launch (R165, R166), and the three sticky
flags of array and MV items with their lowest locations (R109, R110, R128). -/
namespace Sys2Proof.Machine

/-- The lower of two pairs in dictionary order. -/
def pairMin (a b : Nat × Nat) : Nat × Nat :=
  if a.1 < b.1 || (a.1 == b.1 && decide (a.2 ≤ b.2)) then a else b

/-- Keep the lowest pair. -/
def keepMin (o : Option (Nat × Nat)) (p : Nat × Nat) : Option (Nat × Nat) :=
  match o with
  | none => some p
  | some q => some (pairMin q p)

/-- Collect an instruction's conditions in its launch (R165): the lowest context that raised a flag and its lowest
instruction (R166). -/
def LaunchRun.note (l : LaunchRun) (c insn : Nat) (inv ovf : Bool) : LaunchRun :=
  { l with inv := if inv then keepMin l.inv (c, insn) else l.inv
           ovf := if ovf then keepMin l.ovf (c, insn) else l.ovf }

/-- Collect conditions in the launch of an ordinal. -/
def noteLaunch (ls : List LaunchRun) (ordinal c insn : Nat) (inv ovf : Bool) : List LaunchRun :=
  ls.map fun l => if l.ordinal = ordinal then l.note c insn inv ovf else l

/-- Order of flag locations (R110): item, then the ordinal, register or row, then LOC_A, then LOC_B. -/
def FlagLoc.le (a b : FlagLoc) : Bool :=
  if a.item ≠ b.item then decide (a.item < b.item)
  else if a.ord ≠ b.ord then decide (a.ord < b.ord)
  else if a.a ≠ b.a then decide (a.a < b.a)
  else decide (a.b ≤ b.b)

/-- The lower of two locations that may be absent. -/
def locMin (x y : Option FlagLoc) : Option FlagLoc :=
  match x, y with
  | none, z => z
  | z, none => z
  | some a, some b => some (if a.le b then a else b)

/-- Both sets of flags, each with its lowest location. -/
def FlagSet.join (x y : FlagSet) : FlagSet :=
  { inv := locMin x.inv y.inv, ovf := locMin x.ovf y.ovf, nan := locMin x.nan y.nan }

/-- INVALID at a location. -/
def FlagSet.ofInv (b : Bool) (l : FlagLoc) : FlagSet := { inv := if b then some l else none }

/-- OVERFLOW at a location. -/
def FlagSet.ofOvf (b : Bool) (l : FlagLoc) : FlagSet := { ovf := if b then some l else none }

/-- NAN_IN at a location. -/
def FlagSet.ofNan (b : Bool) (l : FlagLoc) : FlagSet := { nan := if b then some l else none }

/-- The flag bits of a status nibble: INVALID, OVERFLOW, NAN_IN (R114, R130). -/
def FlagSet.bits (f : FlagSet) : Nat := b2n f.inv.isSome + 2 * b2n f.ovf.isSome + 4 * b2n f.nan.isSome

end Sys2Proof.Machine
end

