-- ==== Sys2Proof/Machine/Thread.lean ====
section
/-! DEFINITION. Issue of one thread instruction (R141, R142, R176): fetch and its code (R135, R237), readiness, encoding
checks, the instruction's own effect, and what a trap does (R167, R169). Every thread instruction is this shared
operation over its own opcode, field use and effect. -/
namespace Sys2Proof.Machine

/-- What an instruction's own effect is, once its encoding has passed: not ready yet; traps (the causes that apply); goes on
with a new state and context, perhaps jumping, perhaps raising conditions; or ends its context. -/
inductive TRes where
  | wait
  | trap (s : State) (causes : List Nat)
  | ok (s : State) (x : Ctx) (jump : Option Nat) (inv ovf : Bool)
  | halt (s : State)

/-- A trap unless no cause applies. -/
def TEnv.guard (e : TEnv) (causes : List Nat) (r : TRes) : TRes := if causes = [] then r else .trap e.s causes

/-- A result that only changes the context. -/
def TEnv.done (e : TEnv) (x : Ctx) (inv : Bool := false) (ovf : Bool := false) : TRes := .ok e.s x none inv ovf

/-- A trap (R167, R169): the context stops, the cluster's trap register takes it unless it still holds one, the traps
counter rises, the TRAP bit of TIL_THR_FLAGS sets, and the trap record goes to the crown as a TRAP fault. -/
def State.trap (s : State) (t k c : Nat) (pc : BitVec 14) (cause : Nat) : State :=
  let p := s.phys t
  let g := s.stepNo
  let s := s.updCluster t k fun cl => cl.setCtx c { cl.ctx c with stopped := true }
  let s := s.updTile p fun x =>
    let r := tget {} x.traps k
    { x with
      traps := if r.valid then x.traps else
        tset x.traps k { valid := true, cause := BitVec.ofNat 8 cause, pc := pc, ctx := BitVec.ofNat 8 c, stepLo := BitVec.ofNat 32 g }
      thrFlags := x.thrFlags ||| BitVec.ofNat 16 (2 ^ (4 * k + 2)) }
  let s := s.tileDross p 0x0B 1
  s.report t 0x01 [(64, g), (6, t), (6, p), (2, k), (8, cause), (14, pc.toNat), (8, c)] (some 0x04)

/-- Whether the barrier a context waits at has been reached by every context of its launch, a halted one counting as arrived (R154),
also where a later launch has taken it. -/
def Cluster.barrierOpen (cl : Cluster) (x : Ctx) (n : Nat) : Bool :=
  match cl.launches.find? fun l => l.ordinal == x.launch with
  | none => true
  | some l => (List.range l.count).all fun i =>
      let y := cl.ctx (l.first + i)
      !y.running || y.launch != x.launch || decide (tget 0 x.barCount n ≤ tget 0 y.barCount n)

/-- Register codes a word names under a use, a vector operand running over n of them. -/
def namedRegs (u : Use) (w : Word) : List Nat :=
  let run := fun (k : Kind) (c : Nat) => if k = .none then [] else if k = .vec then (List.range u.n).map (c + ·) else [c]
  run u.dst w.dst ++ run u.s1 w.s1 ++ run u.s2 w.s2 ++ run u.s3 w.s3

/-- Count an instruction as completed; the count saturates (R166). -/
def Ctx.completed (x : Ctx) : Ctx := { x with insns := min 0xFFFFFFFF (x.insns + 1) }

/-- Finish an instruction: write the context back, collect its conditions, move the pc. Falling past index 16,383 traps with
PC_RANGE after all the instruction's effects (R201). -/
def finish (e : TEnv) (s : State) (x : Ctx) (jump : Option Nat) (inv ovf : Bool) : State :=
  let pc := e.x.pc
  let x := { x.completed with
    pc := match jump with | some j => BitVec.ofNat 14 j | none => pc + 1 }
  let past := jump = none && pc.toNat = 16383
  let x := if past then { x with pc := pc } else x
  let s := s.updCluster e.t e.k fun cl =>
    { cl.setCtx e.c x with launches := noteLaunch cl.launches e.x.launch e.c e.x.insns inv ovf }
  if past then s.trap e.t e.k e.c pc pcRange else s

/-- End of a context (R139). -/
def haltCtx (e : TEnv) (s : State) : State :=
  s.updCluster e.t e.k fun cl => cl.setCtx e.c { (cl.ctx e.c).completed with running := false }

/-- What an instruction does once its encoding has passed. -/
def settle (e : TEnv) (r : TRes) : State :=
  match r with
  | .wait => e.s
  | .trap s causes => s.trap e.t e.k e.c e.x.pc ((lowest causes).getD illegalField)
  | .ok s x jump inv ovf => finish e s x jump inv ovf
  | .halt s => haltCtx e s

/-- Whether a context cannot issue: it does not run, a trap has stopped it, or it waits at a barrier that is not open (R141, R154,
R167). -/
def Cluster.blocked (cl : Cluster) (x : Ctx) : Bool :=
  !x.running || x.stopped || (match x.barWait with | none => false | some n => !cl.barrierOpen x n)

/-- The fetch of a context's next instruction: none when the context cannot issue; the word and its decode otherwise. -/
def State.fetch (s : State) (t k c : Nat) : Option (TEnv × WordDec) :=
  let cl := s.cluster t k
  let x := cl.ctx c
  if cl.blocked x then none
  else
    let f := fetchWord cl x.pc.toNat
    some ({ s := s, t := t, k := k, c := c, x := { x with barWait := none }, w := Word.of f.1 }, f.2)

/-- Issue of one instruction: the context's next word is fetched and, where it is the opcode named, checked and performed.
A context that cannot issue, or whose next instruction is another one, does nothing. -/
def issue (opcode : Nat → Bool) (use : Word → Use) (body : TEnv → TRes) (i : Issue) (s : State) : State :=
  let t := i.tile.val
  let k := i.cluster.val
  let c := i.ctx.val
  let s := s.updCluster t k fun cl => cl.strike i.upsets
  match s.fetch t k c with
  | none => s
  | some (e, d) =>
    if d.bad then (s.tileDross (s.phys t) 0x07 1).trap t k c e.x.pc 0x01
    else if !opcode e.w.opc then s
    else
      let u := use e.w
      let s := if d.fixed then s.tileDross (s.phys t) 0x06 1 else s
      let e := { e with s := s }
      let causes := encodingCauses u e.w
      if causes ≠ [] then settle e (.trap s causes)
      else if (namedRegs u e.w).any (· ∈ e.x.pend) then s
      else settle e (body e)

/-- Issue of the instruction of one opcode. -/
def thread (opcode : Nat) (use : Word → Use) (body : TEnv → TRes) (i : Issue) (s : State) : Out :=
  .next (issue (· == opcode) use body i s)

end Sys2Proof.Machine
end

