-- ==== Sys2Proof/Machine/Moulds.lean ====
section
/-! DEFINITION. Reading the loaded schedule: the mould set in force, the binding record of the device's rank (R262, R266),
selectors (R267), moulds by role and class (R264), banks (R278) and list entries (R271 to R275). -/
namespace Sys2Proof.Machine

/-- The mould set in force: that of the open step, or of the crown's mapping (R305). -/
def State.mouldSet (s : State) : MouldSet :=
  let m := match s.crown.openStep with | some o => o.mapping | none => s.crown.mapping
  (s.loaded.sets.find? fun x => x.mapping == m).getD {}

/-- The binding record of the device's rank (R262, R266). -/
def State.binding (s : State) : List W64 := lget [] s.mouldSet.bindings s.crown.rankNow.toNat

/-- ROLE of the device (R266). -/
def State.role (s : State) : Nat := bits (lget 0 s.binding 0).toNat 63 58

/-- SITE of the device's binding record (R266). -/
def State.bindSite (s : State) : Nat := bits (lget 0 s.binding 0).toNat 57 55

/-- Binding slot n (R266). -/
def State.slot (s : State) (n : Nat) : W64 := lget 0 s.binding n

/-- BANK_SPAN, slot 47 (R266). -/
def State.bankSpan (s : State) : Nat := (s.slot 47).toNat

/-- The manifest of the open step. -/
def State.manifest (s : State) : Option Manifest :=
  match s.crown.openStep with
  | some o => if s.crown.replayFeed then (s.crown.keptFeed.bind fun k => k.2.manifest) else (tget {} s.crown.feeds o.step).manifest
  | none => none

/-- Manifest parameter word n of the current step (R267). -/
def State.manifestWord (s : State) (n : Nat) : W64 := lget 0 ((s.manifest.map Manifest.params).getD []) n

/-- What a selector adds (R267). -/
def State.select (s : State) (sel : Nat) : W64 :=
  if sel = 0 then 0 else if sel < 48 then s.slot sel else s.manifestWord (sel - 48)

/-- A selected 64-bit value, address or operation id (R267). -/
def State.sel64 (s : State) (sel lit : Nat) : W64 := s.select sel + BitVec.ofNat 64 lit
def State.selAddr (s : State) (sel lit : Nat) : Nat := (s.sel64 sel lit).toNat % 2 ^ 42
def State.selOp (s : State) (sel lit : Nat) : Nat := (s.sel64 sel lit).toNat % 2 ^ 32

/-- CB, the bank that holds the committed generation at step open: generation x lies in bank x & 1 (R278, R308). -/
def State.cb (s : State) : Nat := match s.crown.openStep with | some o => (o.step + 1) % 2 | none => s.crown.gen % 2

/-- What a BANK field adds to an address (R278): 0 none, 1 CB x BANK_SPAN, 2 (1 - CB) x BANK_SPAN. -/
def State.bankAdd (s : State) (bank : Nat) : Nat :=
  match bank with
  | 1 => s.cb * s.bankSpan
  | 2 => (1 - s.cb) * s.bankSpan
  | _ => 0

/-- The class of the open step; with none open, the lowest class present in the set (DESIGN CHOICE: R288 and R296 give each class its
own hub moulds and name none between steps). -/
def State.cls (s : State) : Nat :=
  match s.crown.openStep with
  | some o => o.cls
  | none => (s.mouldSet.classes.findIdx? ClassEntry.present).getD 0

/-- The mould of logical tile t in the class of the open step (R264). -/
def State.tileMould (s : State) (t : Nat) : TileMould :=
  ((s.mouldSet.tiles.find? fun x => x.1 == (s.role, s.cls, t)).map Prod.snd).getD {}

/-- The mould of hub h in a class (R264). -/
def State.hubMouldOf (s : State) (c h : Nat) : HubMould :=
  ((s.mouldSet.hubs.find? fun x => x.1 == (s.role, c, h)).map Prod.snd).getD {}

/-- The mould of hub h in the class of the open step. -/
def State.hubMould (s : State) (h : Nat) : HubMould := s.hubMouldOf s.cls h

/-- Tagged-range entries of a hub (R288, R296). -/
def State.taggedRanges (s : State) (h : Nat) : List (Nat × Nat) := (s.hubMould h).tagged

/-- The header of a list entry. -/
def Entry.head {α : Type} : Entry α → Head
  | .item h _ => h
  | .rbegin h _ _ _ => h
  | .rend h => h

/-- The item of a list entry. -/
def Entry.body? {α : Type} : Entry α → Option α
  | .item _ a => some a
  | .rbegin _ _ _ _ => none
  | .rend _ => none

/-- How often the entry at a position of a list runs in the step: the product of the counts of the repeats around it (R274). chunks
gives the chunks of a micro-batch. -/
def runsOf {α : Type} (chunks : Nat → Nat) (l : List (Entry α)) (pos : Nat) : Nat :=
  ((l.take pos).foldl (fun (st : List Nat) e => match e with
    | .rbegin _ c fm mb => (if fm then chunks mb else c) :: st
    | .rend _ => st.drop 1
    | .item _ _ => st) []).foldl (· * ·) 1

/-- Bytes of n packed elements, the last group filled up (R35). -/
def packedBytes (f : Fmt) (n : Nat) : Nat :=
  if f.width = 4 then cdiv n 2 else if f.width = 6 then 3 * cdiv n 4 else n * (f.width / 8)

/-- Execution count of the entry at a position (R272). -/
def ListRun.count (r : ListRun) (pos : Nat) : Nat := tget 0 r.counts pos

/-- Advanced operation id (R272). -/
def Head.op (h : Head) (i op : Nat) : Nat := (op + i * (h.adv.map Adv.op).getD 0) % 2 ^ 32

/-- What the advance adds to every address of an item (R272). -/
def Head.addr (h : Head) (i : Nat) : Int := 64 * (i : Int) * (h.adv.map Adv.addr).getD 0

/-- An address of an item with its advance, in a space of w bits. -/
def Head.at (h : Head) (i w a : Nat) : Nat := wrap w ((a : Int) + h.addr i)

/-- Advanced epoch of a launch (R272). -/
def Head.epoch (h : Head) (i e : Nat) : Nat := (e + i * (h.adv.map Adv.epoch).getD 0) % 2 ^ 16

/-- The wait of an item at its i-th execution: token and value (R272, R273). -/
def Head.waitAt (h : Head) (i : Nat) : Option (Nat × Nat) :=
  h.wait.map fun w => (w.1, w.2 + i * (h.adv.map Adv.wait).getD 0)

/-- Whether a tile item's wait is satisfied (R149, R273). -/
def State.waitMet (s : State) (t : Nat) (h : Head) (i : Nat) : Bool :=
  match h.waitAt i with
  | none => true
  | some w => decide (w.2 ≤ s.token t w.1)

/-- Whether a hub item's wait is satisfied. -/
def State.hubWaitMet (s : State) (n : Nat) (h : Head) (i : Nat) : Bool :=
  match h.waitAt i with
  | none => true
  | some w => decide (w.2 ≤ s.hubToken n w.1)

/-- Send a tile item's completion signal (R271, R273): SIG_DIE 0x0 the own die, 0x1 the tile's hub. -/
def State.tileItemSignal (s : State) (t : Nat) (sig : Option (Nat × Nat)) : State :=
  match sig with
  | none => s
  | some (die, tok) => if die = 1 then s.sendSignal t (48 + t / 6) tok 1 else s.sendSignal t t tok 1

/-- Send a hub item's completion signal (R271, R273): 0x0 the own die, 0x8 to 0xD a tile of the hub's flask. -/
def State.hubItemSignal (s : State) (h : Nat) (sig : Option (Nat × Nat)) : State :=
  match sig with
  | none => s
  | some (die, tok) =>
    if 8 ≤ die then s.sendSignal (48 + h) (6 * h + (die - 8)) tok 1 else s.sendSignal (48 + h) (48 + h) tok 1

end Sys2Proof.Machine
end

