-- ==== Sys2Proof/Machine/ThreadMem.lean ====
section
/-! DEFINITION. Local-store and memory instructions of threads (R144 to R147, R155 to R159, R193 to R196). -/
namespace Sys2Proof.Machine

/-- Count a local-store access's decodes at the tile (R250). -/
def State.countLs (s : State) (t fixed bad : Nat) : State :=
  (s.tileDross (s.phys t) 0x04 fixed).tileDross (s.phys t) 0x05 bad

/-- The context's cluster. -/
def TEnv.cl (e : TEnv) : Cluster := e.s.cluster e.t e.k

/-- Bytes that 16 elements of a format take (R193), and the alignment of the access (R195). -/
def lsBytes (f : Fmt) : Nat := 2 * f.width
def lsAlign (f : Fmt) : Nat := if f.width = 6 then 4 else 2 * f.width

/-- A thread's local-store read that goes on with its bytes, or traps LS_UNCORRECTABLE (R195, R245). -/
def TEnv.lsLoad (e : TEnv) (a len : Nat) (k : State → List Byte → TRes) : TRes :=
  let r := lsRead e.cl a len
  let s := e.s.countLs e.t r.fixed r.bads
  if r.bad.isSome then .trap s [lsUncorrectable] else k s r.bytes

/-- A thread's local-store writes in order, or a trap that writes nothing (R176, R243, R245). -/
def TEnv.lsStore (e : TEnv) (ws : List (Nat × List (Byte × Byte))) : TRes :=
  let r := ws.foldl (fun (r : LsWrite) w =>
    if r.bad.isSome then r
    else let n := lsWrite r.cl w.1 w.2; { n with fixed := r.fixed + n.fixed }) { cl := e.cl : LsWrite }
  if r.bad.isSome then .trap (e.s.countLs e.t r.fixed 1) [lsUncorrectable]
  else .ok ((e.s.setCluster e.t e.k r.cl).countLs e.t r.fixed 0) e.x none false false

/-- Bytes of packed elements and the bit mask of the active ones (R35, R193). -/
def TEnv.packLanes (e : TEnv) (w : Nat) (f : Nat → Nat) : List (Byte × Byte) :=
  let v := packBits w ((List.range 16).map f)
  let m := packBits w ((List.range 16).map fun l => if e.active l then 2 ^ w - 1 else 0)
  (leBytes (2 * w) v).zip (leBytes (2 * w) m)

/-- The element format of LLD and LST: any of R173 but F64. -/
def lsFmts : List Nat := [0, 1, 2, 3, 4, 5, 6, 7, 8, 9]

/-- Formats of 32, 16 or 8 bits (R193, R194). -/
def wideFmts : List Nat := [0, 1, 2, 3, 4, 5, 6]

/-- The format an instruction's FMT names. -/
def TEnv.fmt (e : TEnv) : Fmt := (Fmt.ofCode e.w.fmt).getD .f32

/-- LLD (R193, R195). -/
def execLld (i : Issue) (s : State) : Out :=
  thread 0x80 (fun _ => { dst := .vec, s1 := .scalar, fmts := lsFmts, mod := 0xFFFFFF })
    (fun e => e.guard (lsCauses e.lsAddr (lsBytes e.fmt) (lsAlign e.fmt))
      (e.lsLoad e.lsAddr (lsBytes e.fmt) fun s b =>
        let els := unpackBits e.fmt.width 16 (leNat b)
        .ok s (e.writeVec e.x e.w.dst fun l => BitVec.ofNat 32 (lget 0 els l)) none false false)) i s

/-- LST (R193, R195): an inactive lane leaves its bits in the store unchanged. -/
def execLst (i : Issue) (s : State) : Out :=
  thread 0x81 (fun _ => { s1 := .scalar, s2 := .lanes, fmts := lsFmts, mod := 0xFFFFFF })
    (fun e => e.guard (lsCauses e.lsAddr (lsBytes e.fmt) (lsAlign e.fmt))
      (e.lsStore [(e.lsAddr, e.packLanes e.fmt.width fun l => (e.lane e.w.s2 l).toNat)])) i s

/-- Causes of an indexed local-store access over the active lanes (R193, R195). -/
def TEnv.idxLsCauses (e : TEnv) : List Nat :=
  e.lanes.flatMap fun l => lsCauses (e.idxAddr l) (elemSize e.w.fmt) (elemSize e.w.fmt)

/-- LGATH (R175, R193): the offsets are lanes of src2, a scalar's the same for every lane. -/
def execLgath (i : Issue) (s : State) : Out :=
  thread 0x82 (fun _ => { dst := .vec, s1 := .scalar, s2 := .lanes, fmts := wideFmts })
    (fun e => e.guard e.idxLsCauses
      (let rs := e.lanes.map fun l => (l, lsRead e.cl (e.idxAddr l) (elemSize e.w.fmt))
       let s := e.s.countLs e.t (rs.foldl (fun n r => n + r.2.fixed) 0) (rs.foldl (fun n r => n + r.2.bads) 0)
       if rs.any fun r => r.2.bad.isSome then .trap s [lsUncorrectable]
       else .ok s (rs.foldl (fun x r => writeLane x e.w.dst r.1 (BitVec.ofNat 32 (leNat r.2.bytes))) e.x) none false false)) i s

/-- LSCAT (R193): lanes naming one address are written in ascending lane order. -/
def execLscat (i : Issue) (s : State) : Out :=
  thread 0x83 (fun _ => { s1 := .scalar, s2 := .lanes, s3 := .lanes, fmts := wideFmts })
    (fun e => e.guard e.idxLsCauses
      (e.lsStore (e.lanes.map fun l =>
        (e.idxAddr l, fullMask (leBytes (elemSize e.w.fmt) (e.lane e.w.s3 l).toNat))))) i s

/-- PLD (R193): a predicate from 2 bytes. -/
def execPld (i : Issue) (s : State) : Out :=
  thread 0x84 (fun _ => { dst := .pred, s1 := .scalar, mod := 0xFFFFFF, pred := false })
    (fun e => e.guard (lsCauses e.lsAddr 2 2)
      (e.lsLoad e.lsAddr 2 fun s b =>
        .ok s (writePred e.x e.w.dst (BitVec.ofNat 16 (leNat b))) none false false)) i s

/-- PST (R193): a predicate to 2 bytes. -/
def execPst (i : Issue) (s : State) : Out :=
  thread 0x85 (fun _ => { s1 := .scalar, s2 := .pred, mod := 0xFFFFFF, pred := false })
    (fun e => e.guard (lsCauses e.lsAddr 2 2)
      (e.lsStore [(e.lsAddr, fullMask (leBytes 2 (readPred e.x e.w.s2).toNat))])) i s

/-! ### Memory requests -/

/-- Whether n more requests fit the limits of the cluster and the context (R144). -/
def TEnv.room (e : TEnv) (n : Nat) : Bool :=
  decide (e.cl.outstanding + n ≤ 512) && decide (e.x.outstanding + n ≤ 16)

/-- Issue an instruction's requests (R144, R204): into the hub's queue of the tile's channel, in lane order. pend names the
registers that wait for data; each write stays unaccepted until the sorter takes it (R151). -/
def TEnv.requests (e : TEnv) (x : Ctx) (pend : List Nat) (write : Bool) (rs : List Req) : TRes :=
  if !e.room rs.length then .wait
  else
    let p := e.s.phys e.t
    let s := rs.foldl (fun s r => s.pushReq (p / 7) (ingressTile p) r) e.s
    let w := if write then rs.length else 0
    let s := s.updCluster e.t e.k fun c =>
      { c with outstanding := c.outstanding + rs.length
               launches := c.launches.map fun l => if l.ordinal = e.x.launch then { l with writes := l.writes + w } else l }
    .ok s { x with outstanding := x.outstanding + rs.length, pend := x.pend ++ pend
                   writes := x.writes + w } none false false

/-- The requesting agent of a thread. -/
def TEnv.agent (e : TEnv) (dest : Option LoadDest) : Agent := .thread e.t e.k e.c e.x.launch e.x.pc dest

/-- Registers MLD and MST move (R194). -/
def Word.mregs (w : Word) : Nat := bits w.mod 23 22 + 1

/-- Alignment of an MLD or MST: its own size (R144, R195). -/
def TEnv.memCausesM (e : TEnv) : List Nat := e.memCauses e.memAddr (64 * e.w.mregs) (64 * e.w.mregs)

/-- MLD (R194). -/
def execMld (i : Issue) (s : State) : Out :=
  thread 0x90 (fun w => { dst := .vec, s1 := .scalar, fmts := [0, 3], mod := 0xFFFFFF, n := w.mregs })
    (fun e => e.guard e.memCausesM
      (e.requests e.x ((List.range e.w.mregs).map (e.w.dst + ·)) false
        [{ agent := e.agent (some (.regs e.w.dst e.w.mregs e.mask)), kind := .read (64 * e.w.mregs), addr := e.memAddr }])) i s

/-- MST (R194): inactive lanes write nothing. -/
def execMst (i : Issue) (s : State) : Out :=
  thread 0x91 (fun w => { s1 := .scalar, s2 := .vec, fmts := [0, 3], mod := 0xFFFFFF, n := w.mregs })
    (fun e => e.guard e.memCausesM
      (let bytes := (List.range (16 * e.w.mregs)).flatMap fun j =>
        (leBytes 4 (tget 0 e.x.v (16 * e.w.s2 + j)).toNat).map fun b => if e.active (j % 16) then some b else none
       e.requests e.x [] true [{ agent := e.agent none, kind := .write bytes, addr := e.memAddr }])) i s

/-- Causes of an indexed memory access over the active lanes (R194, R195). -/
def TEnv.idxMemCauses (e : TEnv) : List Nat :=
  e.lanes.flatMap fun l => e.memCauses (e.idxAddr l) (elemSize e.w.fmt) (elemSize e.w.fmt)

/-- GATH (R155, R194): one request per active lane. -/
def execGath (i : Issue) (s : State) : Out :=
  thread 0x92 (fun _ => { dst := .vec, s1 := .scalar, s2 := .vec, fmts := wideFmts })
    (fun e => e.guard e.idxMemCauses
      (e.requests e.x (e.lanes.map fun _ => e.w.dst) false (e.lanes.map fun l =>
        { agent := e.agent (some (.lane e.w.dst l (elemSize e.w.fmt))), kind := .read (elemSize e.w.fmt), addr := e.idxAddr l }))) i s

/-- SCAT (R156, R194): in ascending lane order. -/
def execScat (i : Issue) (s : State) : Out :=
  thread 0x93 (fun _ => { s1 := .scalar, s2 := .vec, s3 := .lanes, fmts := wideFmts })
    (fun e => e.guard e.idxMemCauses
      (e.requests e.x [] true (e.lanes.map fun l =>
        { agent := e.agent none, addr := e.idxAddr l
          kind := .write ((leBytes (elemSize e.w.fmt) (e.lane e.w.s3 l).toNat).map some) }))) i s

/-- SCADD (R157 to R159, R194): each active lane is one add under the key (E, thread, seq); seq advances by one per active
lane. -/
def execScadd (i : Issue) (s : State) : Out :=
  thread 0x94 (fun _ => { s1 := .scalar, s2 := .vec, s3 := .lanes, fmts := [0, 3] })
    (fun e => e.guard e.idxMemCauses
      (let rs := e.lanes.zipIdx.map fun l =>
        { agent := e.agent none, addr := e.idxAddr l.1
          kind := .add (e.w.fmt == 3) (e.lane e.w.s3 l.1) e.x.epoch (e.t * 1024 + e.k * 256 + e.c)
            (e.x.seqNo.toNat + l.2) : Req }
       e.requests { e.x with seqNo := e.x.seqNo + BitVec.ofNat 32 rs.length } [] true rs)) i s

end Sys2Proof.Machine
end

