-- ==== Sys2Proof/Machine/ThreadSync.lean ====
section
/-! DEFINITION. Stream kicks, adjustable counts, tokens and barriers (R149 to R154, R197 to R199), control instructions
(R201) and unassigned opcodes. -/
namespace Sys2Proof.Machine

/-- Position of a context's launch in its cluster's launch list. -/
def TEnv.launchPos (e : TEnv) : Option Nat :=
  (e.cl.launches.find? fun l => l.ordinal == e.x.launch).map LaunchRun.pos

/-- Whether a descriptor's offset side is its source (R197, R280). -/
def Desc.offsetSrc (d : Desc) : Bool := d.srcKind = 0 || d.srcKind = 1

/-- Kind of the offset side: 0 LS, 1 MEM, 2 HUB, 3 MV. -/
def Desc.offsetKind (d : Desc) : Nat := if d.offsetSrc then d.srcKind else d.dstKind

/-- Stride of the offset side. -/
def Desc.offsetStride (d : Desc) : Nat := if d.offsetSrc then d.srcStride else d.dstStride

/-- Bits of a descriptor's element (R173). -/
def Desc.width (d : Desc) : Nat := ((Fmt.ofCode d.fmt).getD .f32).width

/-- Row alignment of a kind of memory (R279). -/
def rowAlign (kind : Nat) : Nat := if kind = 0 then 64 else if kind = 1 then 32 else 1

/-- Whether a kick's offset and count stay within the descriptor's own extent and alignment (R197, check 4), counted in
bits. -/
def Desc.kickFits (d : Desc) (off count : Nat) : Bool :=
  let k := cdiv count d.rowElems
  let s := 8 * d.offsetStride
  if 2 ≤ d.offsetKind then off == 0
  else decide (off % rowAlign d.offsetKind = 0) &&
    decide (8 * off + (k - 1) * s + (count - (k - 1) * d.rowElems) * d.width ≤ (d.rows - 1) * s + d.rowElems * d.width)

/-- The checks of SKICK in their order (R197). -/
def TEnv.kickCauses (e : TEnv) (m : TileMould) (off count : Nat) : List Nat :=
  match m.descs[bits e.w.mod 11 0]? with
  | none => [paramRange]
  | some d =>
    if !d.tkick || d.cluster ≠ e.k || e.launchPos ≠ some d.kickLaunch || e.x.lidx ≠ d.kickLidx then [kickOwner]
    else if count = 0 || decide (d.rows * d.rowElems < count) then [paramRange]
    else if !d.kickFits off count then [paramRange]
    else []

/-- SKICK (R197): not ready until earlier writes are accepted; the kick queues at the descriptor's engine (R280). -/
def execSkick (i : Issue) (s : State) : Out :=
  thread 0xA0 (fun _ => { s1 := .scalar, s2 := .scalar, mod := 0xFFF, pred := false })
    (fun e =>
      let m := e.s.tileMould e.t
      let off := (e.scalar e.w.s1).toNat
      let count := (e.scalar e.w.s2).toNat
      if e.x.writes ≠ 0 then .wait
      else e.guard (e.kickCauses m off count)
        (let idx := bits e.w.mod 11 0
         let d := lget {} m.descs idx
         let n := 2 * d.cluster + d.engine
         .ok (e.s.updLtile e.t fun x =>
           x.setEngine n { x.engine n with kicks := (x.engine n).kicks ++ [{ desc := idx, offset := off, count := count }] })
           e.x none false false)) i s

/-- The adjustable items of a pour list, with their greatest counts, in list order (R198, R275). -/
def adjPours (l : List (Entry PourItem)) : List Nat :=
  l.filterMap fun e => e.body?.bind fun p => if p.adj then some p.n else none

/-- The adjustable items of an MV list, with their greatest row counts. -/
def adjMvs (l : List (Entry MvItem)) : List Nat :=
  l.filterMap fun e => e.body?.bind fun p => if p.adj then some p.nrow else none

/-- Causes of setting an adjustable item (R198): out of range or not adjustable, or set already in the step. -/
def psetnCauses (maxes : List Nat) (done : Tbl Nat) (n v : Nat) : List Nat :=
  match maxes[n]? with
  | none => [paramRange]
  | some m => (if v = 0 || decide (m < v) then [paramRange] else []) ++ (if thas done n then [paramTwice] else [])

/-- PSETN (R198). -/
def execPsetn (i : Issue) (s : State) : Out :=
  thread 0xA1 (fun _ => { s1 := .scalar, mod := 0x1FFF, pred := false })
    (fun e =>
      let m := e.s.tileMould e.t
      let n := bits e.w.mod 11 0
      let v := (e.scalar e.w.s1).toNat
      if bit e.w.mod 12 then
        let r := e.k / 2
        let mv := (e.s.ltile e.t).mv r
        e.guard (psetnCauses (adjMvs (lget [] m.mvs r)) mv.adj n v)
          (.ok (e.s.updLtile e.t fun x => x.setMv r { mv with adj := tset mv.adj n v }) e.x none false false)
      else
        e.guard (psetnCauses (adjPours (lget [] m.pours e.k)) e.cl.arr.adj n v)
          (.ok (e.s.updCluster e.t e.k fun c => { c with arr := { c.arr with adj := tset c.arr.adj n v } })
            e.x none false false)) i s

/-- WAIT (R199): token MOD[23:16] is at least src1 + MOD[15:0] modulo 2^32. -/
def execWait (i : Issue) (s : State) : Out :=
  thread 0xB0 (fun _ => { s1 := .scalar, mod := 0xFFFFFF, pred := false })
    (fun e =>
      let v := ((e.scalar e.w.s1).toNat + bits e.w.mod 15 0) % 2 ^ 32
      if v ≤ e.s.token e.t (bits e.w.mod 23 16) then e.done e.x else .wait) i s

/-- Field use of SIGNAL: an amount of 0 is ILLEGAL_FIELD (R199). -/
def useSignal (w : Word) : Use :=
  { mod := 0xFF00FF, pred := false, fmts := if bits w.mod 7 0 = 0 then [] else [0] }

/-- SIGNAL (R149 to R151, R199): held until the context's earlier writes are accepted. -/
def execSignal (i : Issue) (s : State) : Out :=
  thread 0xB1 useSignal (fun e =>
      let tok := bits e.w.mod 23 16
      let n := bits e.w.mod 7 0
      if e.x.writes ≠ 0 then .wait
      else e.guard (if 0xFFFFFFFF < e.s.token e.t tok + n then [tokenOverflow] else [])
        (.ok (e.s.signal e.t tok n) e.x none false false)) i s

/-- BAR (R154, R199): the context counts its arrival and issues nothing more until every context of its launch has reached
the same barrier as often, or has halted. -/
def execBar (i : Issue) (s : State) : Out :=
  thread 0xB2 (fun _ => { mod := 0x7, pred := false })
    (fun e =>
      let n := bits e.w.mod 2 0
      e.done { e.x with barCount := tput 0 e.x.barCount n (tget 0 e.x.barCount n + 1), barWait := some n }) i s

/-! ### Control -/

/-- A branch target (R201). -/
def Word.target (w : Word) : Nat := bits w.mod 13 0

/-- BR (R201). -/
def execBr (i : Issue) (s : State) : Out :=
  thread 0xE0 (fun _ => { mod := 0x3FFF, pred := false }) (fun e => .ok e.s e.x (some e.w.target) false false) i s

/-- BRP (R201): PRED names P, after NEG; MOD[16] asks for all ones instead of any. -/
def execBrp (i : Issue) (s : State) : Out :=
  thread 0xE1 (fun _ => { mod := 0x13FFF })
    (fun e =>
      let take := if bit e.w.mod 16 then e.mask = 0xFFFF else e.mask ≠ 0
      .ok e.s e.x (if take then some e.w.target else none) false false) i s

/-- LOOP (R201): src1 must be a scalar register, which it writes. -/
def execLoop (i : Issue) (s : State) : Out :=
  thread 0xE2 (fun _ => { s1 := .sreg, mod := 0x3FFF, pred := false })
    (fun e =>
      let v := e.scalar e.w.s1 - 1
      .ok e.s (writeScalar e.x e.w.s1 v) (if v = 0 then none else some e.w.target) false false) i s

/-- HALT (R139, R201). -/
def execHalt (i : Issue) (s : State) : Out :=
  thread 0xE3 (fun _ => { pred := false }) (fun e => .halt e.s) i s

/-- TRAP (R201, R202): a user cause. -/
def execTrap (i : Issue) (s : State) : Out :=
  thread 0xE4 (fun _ => { mod := 0x7F, pred := false }) (fun e => .trap e.s [0x80 + bits e.w.mod 6 0]) i s

/-- The assigned opcodes (R179 to R201). -/
def assignedOpcode (o : Nat) : Bool :=
  [(0x10, 0x1A), (0x20, 0x2C), (0x30, 0x3B), (0x40, 0x45), (0x50, 0x52), (0x60, 0x66), (0x68, 0x6D), (0x70, 0x73),
   (0x80, 0x85), (0x90, 0x94), (0xA0, 0xA1), (0xB0, 0xB2), (0xC0, 0xC3), (0xE0, 0xE4)].any fun r =>
    decide (r.1 ≤ o ∧ o ≤ r.2)

/-- Issue of a word whose opcode is not assigned (R201): it traps with ILLEGAL_OPCODE. -/
def execIllegalOpcode (i : Issue) (s : State) : Out :=
  .next (issue (fun o => !assignedOpcode o) (fun _ => { assigned := false }) (fun _ => .wait) i s)

end Sys2Proof.Machine
end

