-- ==== Sys2Proof/Machine/Lists.lean ====
section
/-! DEFINITION. Where the lists of moulds stand: list reads (R269), positions, repeats and execution counts (R272, R274),
tokens that arrive from other dies (R273), riser checks (R298, R299) and trace records (R462). -/
namespace Sys2Proof.Machine

/-- A list entry without its item. -/
def Entry.mark {α : Type} : Entry α → Entry Unit
  | .item h _ => .item h ()
  | .rbegin h c f m => .rbegin h c f m
  | .rend h => .rend h

/-- The 18 lists of a tile mould as marks (R276, R277): 0 to 3 pour, 4 and 5 MV, 6 to 9 launch, 10 to 17 stream. -/
def TileMould.marks (m : TileMould) (l : Nat) : List (Entry Unit) :=
  if l < 4 then (lget [] m.pours l).map Entry.mark
  else if l < 6 then (lget [] m.mvs (l - 4)).map Entry.mark
  else if l < 10 then (lget [] m.launches (l - 6)).map Entry.mark
  else (lget [] m.streams (l - 10)).map Entry.mark

/-- Words of a list up to and including a position (R271). -/
def wordsTo {α : Type} (l : List (Entry α)) (pos : Nat) : Nat := ((l.take (pos + 1)).map fun e => e.head.words).sum

/-- Whether the words of a tile's list entry have been read (R269). A list without a place in the mould area (one that no
mould load put there) needs no reading. -/
def State.entryRead (s : State) (t l pos : Nat) : Bool :=
  let m := s.tileMould t
  (lget (0, 0) m.listAt l).2 == 0 || decide (wordsTo (m.marks l) pos ≤ ((s.ltile t).run l).fetched)

/-- Count one more execution of an entry and move past it. -/
def ListRun.advance (r : ListRun) : ListRun := { r with pos := r.pos + 1, counts := tput 0 r.counts r.pos (r.count r.pos + 1) }

/-- Position after the REPEAT_END that matches a skipped REPEAT_BEGIN; n counts the repeats still open. -/
def skipGroup {α : Type} : List (Entry α) → Nat → Nat → Nat
  | [], p, _ => p
  | .rbegin _ _ _ _ :: t, p, n => skipGroup t (p + 1) (n + 1)
  | .rend _ :: t, p, n => if n = 0 then p + 1 else skipGroup t (p + 1) (n - 1)
  | .item _ _ :: t, p, n => skipGroup t (p + 1) n

/-- Chunks of micro-batch mb of the step, in class 8 (R274, R293). -/
def State.chunksOf (s : State) (mb : Nat) : Nat :=
  let c := lget {} s.mouldSet.classes 8
  let len := lget 0 ((s.manifest.map Manifest.mbs).getD []) mb
  if c.maxLen = 0 then 0 else cdiv len c.maxLen

/-- REPEAT_BEGIN at the list position (R274): a count of 0 skips the group. -/
def ListRun.begin {α : Type} (r : ListRun) (l : List (Entry α)) (n : Nat) : ListRun :=
  if n = 0 then { r.advance with pos := skipGroup (l.drop (r.pos + 1)) (r.pos + 1) 0 }
  else { r.advance with stack := (r.pos, n - 1) :: r.stack }

/-- REPEAT_END at the list position (R274): back to the group's start while executions remain. -/
def ListRun.finishRepeat (r : ListRun) : ListRun :=
  match r.stack with
  | [] => r.advance
  | (b, n) :: t => if n = 0 then { r.advance with stack := t } else { r.advance with pos := b + 1, stack := (b, n - 1) :: t }

/-- Move a list on to a repeat marker: the items before it that are not done stay in progress. -/
def ListRun.leave (r : ListRun) (m : Nat) (left : List Inst) : ListRun :=
  { r with pos := m, ahead := [], pend := r.pend ++ left, counts := left.foldl (fun t n => tput 0 t n.pos (n.i + 1)) r.counts }

/-- Position of the first repeat marker from a position on. -/
def markerFrom {α : Type} (l : List (Entry α)) (p : Nat) : Option Nat :=
  ((l.drop p).findIdx? fun e => match e with | .item _ _ => false | _ => true).map (p + ·)

/-- The next entry of a tile's list, where its words are read and its wait is met, and no fault has stopped the list; ahead is empty then. -/
def State.tileMarker (s : State) (t l : Nat) : Option (Entry Unit) :=
  let r := (s.ltile t).run l
  match (s.tileMould t |>.marks l)[r.pos]? with
  | none => none
  | some e => if s.crown.openStep.isSome && !r.stopped && s.entryRead t l r.pos && s.waitMet t e.head (r.count r.pos) then some e else none

/-! ### Hub lists -/

/-- Binding record of a rank (R262, R266), its role, and a selector of it (R267; a rank's manifest words are not known to
another device). -/
def State.bindingOf (s : State) (rank : Nat) : List W64 := lget [] s.mouldSet.bindings rank
def State.roleOf (s : State) (rank : Nat) : Nat := bits (lget 0 (s.bindingOf rank) 0).toNat 63 58
def State.selOf (s : State) (rank sel lit : Nat) : Nat :=
  ((if sel = 0 then 0 else if sel < 48 then lget 0 (s.bindingOf rank) sel else s.manifestWord (sel - 48)) +
    BitVec.ofNat 64 lit : W64).toNat

/-- Hub mould of a rank's hub in class 0, which a rebuild runs (R461). -/
def State.hubMouldAt (s : State) (rank h : Nat) : HubMould :=
  ((s.mouldSet.hubs.find? fun x => x.1 == (s.roleOf rank, 0, h)).map Prod.snd).getD {}

/-- Items of a rank's hub moulds: hub, list, position, item. -/
def State.itemsOf (s : State) (rank : Nat) : List (Nat × Nat × Nat × HubItem) :=
  (List.range 8).flatMap fun h => (s.hubMouldAt rank h).lists.zipIdx.flatMap fun l => l.1.zipIdx.filterMap fun e =>
    e.1.body?.map fun it => (h, l.2, e.2, it)

/-- Endpoints (hub, endpoint) an item of hub h sends to. -/
def HubItem.outputs (it : HubItem) (h : Nat) : List (Nat × Nat) :=
  match it.body with
  | .node w => [(w.outHub, it.epOut)]
  | .ladle _ _ _ _ _ outs => outs
  | _ => if it.epOut = 0xFFF then [] else [(h, it.epOut)]

/-- Whether an item of a rank carries working copies and so runs in a rebuild (R461): an UPDATE, or a LADLE, PORT_SEND or
PORT_RECV fed by one, directly or through others on any device (fuel: hops). -/
def State.carries (s : State) : Nat → Nat → Nat → HubItem → Bool
  | 0, _, _, _ => false
  | k + 1, rank, h, it =>
    let fed := fun (_ : Unit) => it.epIn != 0xFFF &&
      (s.itemsOf rank).any fun x => decide ((h, it.epIn) ∈ x.2.2.2.outputs x.1) && s.carries k rank x.1 x.2.2.2
    match it.body with
    | .update _ => true
    | .ladle _ _ _ norm _ _ => !norm && fed ()
    | .portSend _ ckpt _ _ => !ckpt && fed ()
    | .portRecv _ _ =>
      let peer := s.selOf rank it.peerSel it.peer % 2048
      (s.itemsOf peer).any fun x => match x.2.2.2.body with
        | .portSend dst ckpt _ _ => !ckpt && dst == h && s.selOf peer x.2.2.2.peerSel x.2.2.2.peer % 2048 == rank &&
            x.2.2.2.op == it.op && s.carries k peer x.1 x.2.2.2
        | _ => false
    | _ => false

/-- Whether an item runs in a rebuild on this device. -/
def State.rebuilt (s : State) (h : Nat) (it : HubItem) : Bool := s.carries 4096 s.crown.rankNow.toNat h it

/-- Whether an item runs only with checkpoints (R290, R403). -/
def HubItem.forCkpt (it : HubItem) : Bool :=
  match it.body with
  | .ckptSend _ => true
  | .portSend _ ckpt _ _ => ckpt
  | _ => false

/-- The list of a hub. -/
def State.hubList (s : State) (h l : Nat) : List (Entry HubItem) := lget [] (s.hubMould h).lists l

/-- Whether an entry does not run with its list: a checkpoint item, or in a rebuild an item that carries no working copies. -/
def State.hubSkip (s : State) (h : Nat) (e : Entry HubItem) : Bool :=
  match e with
  | .item _ it => it.forCkpt || (s.crown.rebuild && !s.rebuilt h it)
  | .rbegin _ _ _ _ => false
  | .rend _ => false

/-- Move a list position past entries that are done or do not run (fuel: entries). -/
def ListRun.settle (skip : Nat → Bool) : Nat → ListRun → ListRun
  | 0, r => r
  | k + 1, r =>
    if r.pos ∈ r.ahead || skip r.pos then
      ListRun.settle skip k { r with pos := r.pos + 1, ahead := r.ahead.filter (· != r.pos) }
    else r

/-- Whether the entry at a position of a hub's list does not run. -/
def State.skipAt (s : State) (h l pos : Nat) : Bool :=
  match (s.hubList h l)[pos]? with
  | none => false
  | some e => s.hubSkip h e

/-- Where a hub's list stands. -/
def State.hubRun (s : State) (h l : Nat) : ListRun :=
  ListRun.settle (s.skipAt h l) ((s.hubList h l).length + 1) ((s.hub h).run l)

/-- Whether every entry of a hub's list that runs is done. -/
def State.hubListDone (s : State) (h l : Nat) : Bool :=
  decide ((s.hubList h l).length ≤ (s.hubRun h l).pos) && (s.hubRun h l).pend = []

/-- Whether hub lists run: a step is open, or a rebuild runs (R461). -/
def State.hubsRun (s : State) : Bool := s.crown.openStep.isSome || s.crown.rebuild

/-- The entry a hub's list stands at, where its wait is met and all before it is done. -/
def State.hubMarker (s : State) (h l : Nat) : Option (Entry HubItem) :=
  let r := s.hubRun h l
  match (s.hubList h l)[r.pos]? with
  | none => none
  | some e => if s.hubsRun && !r.stopped && r.pend = [] && s.hubWaitMet h e.head (r.count r.pos) then some e else none

/-- An execution of a hub item that has started, or may start: where it stands, its header and the item. -/
structure HubAt where
  inst : Inst
  head : Head
  item : HubItem
  deriving DecidableEq, Repr

/-- The items of a hub's list from its position to the next marker that are not done, in order, as far as their waits let them start
(R273, R285), and whether all of them may. -/
def State.hubStarts (s : State) (h l : Nat) : List HubAt × Bool :=
  let r := s.hubRun h l
  let seg := (((s.hubList h l).drop r.pos).zipIdx.map fun e => (e.2 + r.pos, e.1)).takeWhile fun e => match e.2 with | .item _ _ => true | _ => false
  let gone := fun (p : Nat) => decide (p ∈ r.ahead) || s.skipAt h l p
  let upto := seg.takeWhile fun e => gone e.1 || s.hubWaitMet h e.2.head (r.count e.1)
  (upto.filterMap fun e => match e.2 with
    | .item hd it => if gone e.1 then none else some { inst := { pos := e.1, i := r.count e.1 }, head := hd, item := it }
    | .rbegin _ _ _ _ => none
    | .rend _ => none, upto.length == seg.length)

/-- The repeat marker a hub's list comes to next, and the list moved on to it, where every item before it has started and its wait is
met (R274, R285). The items before it may still be in progress, at most 64 of them; those before a marker that signals, and those of
the FENCE list, are done first. -/
def State.hubRepeat (s : State) (h l : Nat) : Option (ListRun × Entry HubItem) :=
  let r := s.hubRun h l
  let st := s.hubStarts h l
  match markerFrom (s.hubList h l) r.pos with
  | none => none
  | some m => match (s.hubList h l)[m]? with
    | none => none
    | some e =>
      let left := st.1.map HubAt.inst
      let r := r.leave m left
      if s.hubsRun && !r.stopped && st.2 && decide (r.pend.length ≤ 64) && ((l ≠ 0 && e.head.sig.isNone) || r.pend = []) && s.hubWaitMet h e.head (r.count m)
      then some (r, e) else none

/-- Arrival of a token signal from another die (R273). -/
def execTokenSignal (index : Nat) (s : State) : Out :=
  .next (match s.crown.signals[index]? with
    | none => s
    | some (die, tok, n) =>
      let s := s.updCrown fun c => { c with signals := ldel c.signals index }
      if die < 48 then s.signal die tok n else s.signalHub (die - 48) tok n)

/-! ### Risers -/

/-- Whether a byte range of a cluster's local store touches a riser (R295). -/
def Riser.touches (r : Riser) (k a len : Nat) : Bool := r.cluster == k && overlaps r.addr r.size a len

/-- The committed generation a step reads: the step before the open one. -/
def State.readGen (s : State) : Nat := s.stepNo - 1

/-- Result of a riser check: the item may start, must wait for its prologue fill, or met a stale riser. -/
inductive RiserCheck where
  | ok
  | waits
  | stale (riser : Nat)
  deriving DecidableEq, Repr

/-- Check one riser by number (R298, R299). -/
def State.checkRiser (s : State) (t n : Nat) : RiserCheck :=
  let x := s.ltile t
  if n ∈ x.prologue then .waits
  else if tget .empty x.risers n = .final s.readGen then .ok
  else .stale n

/-- Check every riser that a local source touches, the lowest number first (R299). -/
def State.checkSource (s : State) (t k : Nat) (src : List (Nat × Nat)) : RiserCheck :=
  let hit := ((s.tileMould t).risers.zipIdx.filter fun r => src.any fun a => decide (a.2 ≠ 0) && r.1.touches k a.1 a.2).map Prod.snd
  match (hit.map fun n => s.checkRiser t n).find? (· ≠ .ok) with
  | none => .ok
  | some c => c

/-- The code of a tag and its generation (R296, R572). -/
def Tag.fields : Tag → Nat × Nat
  | .empty => (0, 0)
  | .prov g => (1, g)
  | .final g => (2, g)

/-- The stale riser fault (R299), met by an item of list l, which stops (R445). -/
def State.staleRiser (s : State) (t l n : Nat) : State :=
  let tag := (tget .empty (s.ltile t).risers n).fields
  (s.updLtile t fun x => x.stopList l).report t 0x0B
    [(64, s.stepNo), (6, t), (6, s.phys t), (8, n), (2, tag.1), (64, tag.2), (64, s.readGen)]

/-! ### Digest tracing -/

/-- Whether digest tracing runs: in a replay (R465). -/
def State.tracing (s : State) : Bool := match s.crown.openStep with | some o => o.replay | none => false

/-- Write the next trace record of an agent of a hub's flask (R462). The place of an agent's part and the form of a record are
the implementation's. -/
def State.trace (s : State) (h agent : Nat) (rd wr : List Byte) : State :=
  if !s.tracing then s
  else
    let i := tget 0 (s.hub h).traceCount agent
    let area := (lget {} s.loaded.placement.hubs h).trace
    let a := area.1 + Config.traceBase agent + 32 * i
    let s := (s.writeMem a ((Config.traceRecord i (crc32c rd) (crc32c wr)).map some)).1
    s.updHub h fun x => { x with traceCount := tput 0 x.traceCount agent (i + 1) }

/-- Trace agents: by tile and list, by hub and list. -/
def tileAgent (t l : Nat) : Nat := 32 * t + l
def hubAgent (h l : Nat) : Nat := 32 * (48 + h) + l

/-- Cut bytes into pieces of 64 KiB. -/
def pieces64 : Nat → List Byte → List (List Byte)
  | 0, _ => []
  | n + 1, l => if l = [] then [] else l.take 65536 :: pieces64 n (l.drop 65536)

/-- Trace every 64 KiB of a stream (R462). -/
def State.traceStream (s : State) (h agent : Nat) (data : List Byte) : State :=
  (pieces64 (data.length / 65536 + 1) data).foldl (fun s d => s.trace h agent d []) s

end Sys2Proof.Machine
end

