-- ==== Sys2Proof/Machine/Launch.lean ====
section
/-! DEFINITION. Launches of thread programs (R136 to R140, R165, R166, R283). -/
namespace Sys2Proof.Machine

/-- A context as a launch sets it (R138): the draw counter and the registers zero, s0 the LIDX, s1 to s4 the arguments; the
scatter-add sequence is kept where the context's last epoch is the launch's, and the requests of the context's earlier launches stay
outstanding (R144). -/
def freshCtx (old : Ctx) (ordinal lidx entry epoch : Nat) (op : W32) (args : List W64) : Ctx :=
  let s := ((BitVec.ofNat 64 lidx :: args).zipIdx).foldl (fun (t : Tbl W64) a => tput 0 t a.2 a.1) []
  { running := true, launch := ordinal, lidx := lidx, op := op, epoch := epoch, pc := BitVec.ofNat 14 entry, s := s
    seqNo := if old.seqEpoch = some epoch then old.seqNo else 0, seqEpoch := some epoch
    outstanding := old.outstanding }

/-- Set the contexts of a launch. -/
def startCtxs (c : Cluster) (ordinal first entry epoch : Nat) (op : W32) (args : List W64) : Nat → Cluster
  | 0 => c
  | n + 1 =>
    let c := startCtxs c ordinal first entry epoch op args n
    c.setCtx (first + n) (freshCtx (c.ctx (first + n)) ordinal n entry epoch op args)

/-- The effect of a launch that may start (R137, R138): its contexts set, itself counted, its list moved on. -/
def State.begin (s : State) (t k : Nat) (h : Head) (it : LaunchItem) : State :=
  let l := 6 + k
  let r := (s.ltile t).run l
  let i := r.count r.pos
  let c := s.cluster t k
  let op := BitVec.ofNat 32 (h.op i (s.selOp it.opb it.op))
  let epoch := h.epoch i it.epoch
  let args := it.args.zipIdx.map fun x => s.sel64 (lget 0 it.sels x.2) x.1
  let run : LaunchRun :=
    { ordinal := c.launchSeq + 1, pos := r.pos, first := it.first, count := it.count, op := op, epoch := epoch, sig := h.sig }
  let c := startCtxs { c with launched := c.launched + 1, launchSeq := c.launchSeq + 1, launches := c.launches ++ [run] } (c.launchSeq + 1) it.first it.entry
    epoch op args it.count
  (s.setCluster t k c).updLtile t fun x => x.setRun l (x.run l).advance

/-- LAUNCH (R137, R138, R283, R299): in list order, once its wait is met and its contexts have halted. -/
def execLaunch (a : ClusterAt) (s : State) : Out :=
  let t := a.tile.val
  let k := a.cluster.val
  let s := s.updCluster t k fun c => c.strike a.upsets
  .next (match s.tileMarker t (6 + k), (lget [] (s.tileMould t).launches k)[((s.ltile t).run (6 + k)).pos]? with
    | some _, some (.item h it) =>
      let free := (List.range it.count).all fun j => !((s.cluster t k).ctx (it.first + j)).running
      if !free then s
      else match (if it.riser = 0xFF then RiserCheck.ok else s.checkRiser t it.riser) with
        | .waits => s
        | .stale n => s.staleRiser t (6 + k) n
        | .ok => s.begin t k h it
    | _, _ => s)

/-- Send the thread record of a flag unless the cluster has sent one for it in the step (R165, R166). -/
def State.threadRecord (s : State) (t k flag : Nat) (op : W32) (at' : Option (Nat × Nat)) : State :=
  match at' with
  | none => s
  | some (c, insn) =>
    let cl := s.cluster t k
    let s := s.tileDross (s.phys t) (0x18 + flag) 1
    let s := s.updTile (s.phys t) fun x => { x with thrFlags := x.thrFlags ||| BitVec.ofNat 16 (2 ^ (4 * k + flag)) }
    let sent := if flag = 0 then cl.thrSent.1 else cl.thrSent.2
    if sent then s
    else
      let s := s.updCluster t k fun cl =>
        { cl with thrSent := if flag = 0 then (true, cl.thrSent.2) else (cl.thrSent.1, true) }
      s.record t 0x03 [(64, s.stepNo), (6, t), (6, s.phys t), (2, k), (2, flag), (32, op.toNat), (8, c), (32, insn)]

/-- Whether a launch is over (R139): every context has halted, one that a later launch has taken among them, and every write it issued is
accepted. Markers of ended epochs: a tile sends a hub its end-of-epoch marker when every launch of the epoch on it has completed
(R226). Whether every launch has, the fence reads from the lists; a completion changes what it reads. -/
def LaunchRun.over (l : LaunchRun) (c : Cluster) : Bool :=
  decide (l.writes = 0) && (List.range l.count).all fun i =>
    let y := c.ctx (l.first + i)
    y.launch != l.ordinal || (!y.running && !y.stopped)

/-- LAUNCH_COMPLETE (R139, R165): every context of the launch has halted and its writes are accepted. -/
def execLaunchComplete (a : ClusterAt) (index : Nat) (s : State) : Out :=
  let t := a.tile.val
  let k := a.cluster.val
  let s := s.updCluster t k fun c => c.strike a.upsets
  let c := s.cluster t k
  .next (match c.launches[index]? with
    | none => s
    | some l =>
      if !l.over c then s
      else
        let s := s.updCluster t k fun c => { c with launches := ldel c.launches index }
        let s := s.threadRecord t k 0 l.op l.inv
        let s := s.threadRecord t k 1 l.op l.ovf
        s.tileItemSignal t l.sig)

end Sys2Proof.Machine
end

