-- ==== Sys2Proof/Machine/Endpoint.lean ====
section
/-! DEFINITION. Hub endpoints (R288): elements in and out in order, their surplus (R317, R339), tags (R361), and the byte forms
of element streams (R35, R39, R279). -/
namespace Sys2Proof.Machine

/-! ### Byte forms -/

/-- Rows of a run of `elems` elements: row number and elements in it, whole rows first (R280). -/
def runRows (rowElems elems : Nat) : List (Nat × Nat) :=
  (List.range (cdiv elems rowElems)).map fun j => (j, min rowElems (elems - j * rowElems))

/-- Elements of packed bytes and scale bytes of 32 elements counted from each row's start (R279). -/
def toElems (f : Fmt) (mx : Bool) (rowElems n : Nat) (data sc : List Byte) : List Elem :=
  (unpackBits f.width n (leNat data)).zipIdx.map fun x =>
    { bits := BitVec.ofNat 64 x.1
      scale := if mx then some (lget 0 sc (x.2 / rowElems * cdiv rowElems 32 + x.2 % rowElems / 32)) else none }

/-- Packed bytes and scale bytes of elements (R279). -/
def ofElems (f : Fmt) (mx : Bool) (rowElems : Nat) (l : List Elem) : List Byte × List Byte :=
  let blocks := (runRows rowElems l.length).flatMap fun r => (List.range (cdiv r.2 32)).map fun b => r.1 * rowElems + 32 * b
  (leBytes (packedBytes f l.length) (packBits f.width (l.map fun x => x.bits.toNat)),
    if mx then blocks.map fun i => (lget {} l i).scale.getD 0 else [])

/-- Bytes of S16 blocks of 256 elements: a scale byte, then the elements (R39). -/
def s16Bytes : Nat → List Elem → List Byte
  | 0, _ => []
  | _, [] => []
  | k + 1, e :: t =>
    let b := (e :: t).take 256
    e.scale.getD 0 :: (b.flatMap fun x => leBytes 2 x.bits.toNat) ++ s16Bytes k ((e :: t).drop 256)

/-- Elements of S16 blocks (R39, R40); n elements are left. -/
def s16Elems : Nat → Nat → List Byte → List Elem
  | 0, _, _ => []
  | _, _, [] => []
  | k + 1, n, c :: t =>
    let m := min 256 n
    ((unpackBits 16 m (leNat (t.take (2 * m)))).map fun v => { bits := BitVec.ofNat 64 v, scale := some c }) ++
      s16Elems k (n - m) (t.drop (2 * m))

/-- The bytes a stream of elements has on a link or in memory: S16 blocks where binary16 elements carry a scale; MX scale bytes
follow their elements (DESIGN CHOICE: the spec lays out no MX stream on a link). -/
def streamBytes (f : Fmt) (l : List Elem) : List Byte :=
  if l.any fun e => e.scale.isSome then
    if f = .f16 then s16Bytes l.length l else let b := ofElems f true l.length l; b.1 ++ b.2
  else (ofElems f false 1 l).1

/-- The elements of a stream's bytes: more bytes than the packed elements take means a scaled stream. -/
def streamElems (f : Fmt) (n : Nat) (b : List Byte) : List Elem :=
  let p := packedBytes f n
  if b.length = p then toElems f false 1 n b []
  else if f = .f16 then s16Elems n n b
  else toElems f true n n (b.take p) (b.drop p)

/-- Put a tag on the last element of a stream (R361). -/
def withTag (tag : Option Tag) : List Elem → List Elem
  | [] => []
  | [e] => [{ e with tag := tag }]
  | e :: t => e :: withTag tag t

/-- The tag a stream carries at its end. -/
def lastTag (l : List Elem) : Option Tag := (l.getLast?).bind Elem.tag

/-! ### Surplus -/

/-- Input endpoints of an item. -/
def HubItem.inputs (it : HubItem) : List Nat :=
  match it.body with
  | .node w => w.slots.flatMap fun z => if z.bkp then [z.primary, z.backup] else [z.primary]
  | _ => if it.epIn = 0xFFF then [] else [it.epIn]

/-- The item that takes an endpoint's elements (R288): list, position, item. -/
def HubMould.consumer (m : HubMould) (ep : Nat) : Option (Nat × Nat × HubItem) :=
  (m.lists.zipIdx.flatMap fun l => l.1.zipIdx.filterMap fun e =>
    e.1.body?.bind fun it => if ep ∈ it.inputs then some (l.2, e.2, it) else none).head?

/-- Whether an endpoint has been given more elements than its item takes in the step (R317, R339): ELEMS for each execution. -/
def State.surplus (s : State) (h ep : Nat) : Option (Nat × Nat × HubItem) :=
  match (s.hubMould h).consumer ep with
  | none => none
  | some (l, p, it) =>
    if (l = 1 || l = 2) && decide (it.elems * runsOf s.chunksOf (s.hubList h l) p < ((s.hub h).ep ep).count) then some (l, p, it) else none

/-- The operation id of a hub item as its next execution uses it (R267, R272). -/
def State.hubOp (s : State) (h : Head) (i : Nat) (it : HubItem) : Nat := h.op i ((s.sel64 0 it.op).toNat % 2 ^ 32)

/-- A STREAM fault (R572). -/
def State.streamFault (s : State) (h cause op peer item : Nat) : State :=
  s.report (hubDie h) 0x07 [(64, s.stepNo), (3, h), (3, cause), (32, op), (11, peer), (16, item)]

/-- Whether an output is driven (R461): in a rebuild, only one that feeds an item that runs. -/
def State.drives (s : State) (h ep : Nat) : Bool :=
  !s.crown.rebuild || (match (s.hubMould h).consumer ep with
    | none => false
    | some (l, _, it) => l ≠ 1 && l ≠ 2 && s.rebuilt h it)

/-- Record the values that valid loss slots take from an endpoint (R290): the first element delivered to it in the step. -/
def State.takeLoss (s : State) (h ep : Nat) (els : List Elem) : State :=
  match els with
  | [] => s
  | e :: _ => s.mouldSet.step.loss.zipIdx.foldl (fun s l =>
      if l.1 = some (h, ep) && !thas s.crown.lossVals l.2 then
        s.updCrown fun c => { c with lossVals := tset c.lossVals l.2 (e.bits.setWidth 32) }
      else s) s

/-- A fault at an item of the REDUCE or UPDATE list stops it: its executions in progress, and the list (R445). -/
def Hub.stopItem (x : Hub) (l pos : Nat) : Hub :=
  { x with
    nodes := if l = 1 then x.nodes.map fun (n : NodeRun) => if n.pos = pos then { n with stopped := true } else n else x.nodes
    upds := if l = 2 then x.upds.map fun (n : UpdRun) => if n.pos = pos then { n with stopped := true } else n else x.upds }.stopList l

/-- Elements reach an endpoint (R288); a surplus element at an UPDATE item or a TREE_NODE slot is a fault (R317, R339). all says that
every gauntlet entry of these elements has come, or that they have none (R355). -/
def State.pushElems (s : State) (h ep : Nat) (els : List Elem) (all : Bool := true) : State :=
  if !s.drives h ep then s else
  let s := s.takeLoss h ep els
  let s := s.updHub h fun x =>
    let e := x.ep ep
    x.setEp ep { e with data := e.data ++ els, count := e.count + els.length, known := if all then e.count + els.length else e.known }
  match (if els = [] then none else s.surplus h ep) with
  | none => s
  | some (l, p, it) => (s.updHub h fun x => x.stopItem l p).streamFault h (if l = 2 then 0 else 1) it.op s.crown.rankNow.toNat p

/-- Insert a gauntlet entry by its stream and its element (R408): entries of one element keep their order. -/
def insertEntry (l : List (Nat × GEntry)) (e : Nat × GEntry) : List (Nat × GEntry) :=
  let le := fun (a b : Nat × GEntry) => decide (a.1 < b.1 ∨ (a.1 = b.1 ∧ a.2.elem ≤ b.2.elem))
  (l.takeWhile fun x => le x e) ++ e :: l.dropWhile fun x => le x e

/-- Entries of the gauntlet sub-stream beside a stream that began after `base` elements reach an endpoint (R353): they stand by ELEM
(R408). -/
def State.pushGaunt (s : State) (h ep base : Nat) (g : List GEntry) : State :=
  s.updHub h fun x => let e := x.ep ep; x.setEp ep { e with gaunt := g.foldl (fun l y => insertEntry l (base, y)) e.gaunt }

/-- Take n elements from an endpoint, when it holds them. -/
def State.takeElems (s : State) (h ep n : Nat) : Option (List Elem × State) :=
  let e := (s.hub h).ep ep
  if e.data.length < n then none
  else some (e.data.take n, s.updHub h fun x => x.setEp ep { e with data := e.data.drop n })

/-- Take the gauntlet entries beside the streams of an endpoint that began before a place (R353, R360). -/
def State.takeGaunt (s : State) (h ep hi : Nat) : List GEntry × State :=
  let e := (s.hub h).ep ep
  ((e.gaunt.filter fun g => decide (g.1 < hi)).map Prod.snd,
    s.updHub h fun x => x.setEp ep { e with gaunt := e.gaunt.filter fun g => !decide (g.1 < hi) })

/-- Whether an endpoint gives credit (R288, R345, R396): one whose item takes its elements in one by one holds only so many. One whose
item takes in a whole stream at once holds it all (DESIGN CHOICE). -/
def State.credit (s : State) (h ep : Nat) : Bool :=
  let n := ((s.hub h).ep ep).data.length
  n = 0 || (match (s.hubMould h).consumer ep with
    | none => true
    | some (_, _, it) => match it.body with
      | .node w => decide (n ≤ Config.endpointRoom) || w.slots.any fun z => z.bkp && (z.primary == ep || z.backup == ep)
      | .update _ => decide (n ≤ Config.endpointRoom)
      | _ => true)

/-! ### Items in progress -/

/-- Executions of a hub list's items that have started, or may start now, and are not done (R285): those from before the last marker,
then those from the position on, at most 64 together. Of one item the earliest goes first. None where a fault has stopped the list. -/
def State.hubWindow (s : State) (h l : Nat) : List HubAt :=
  let r := s.hubRun h l
  if !s.hubsRun || r.stopped then []
  else
    let old := r.pend.filterMap fun n => match (s.hubList h l)[n.pos]? with
      | some (Entry.item hd it) => some ({ inst := n, head := hd, item := it } : HubAt)
      | _ => none
    let all := (old ++ (s.hubStarts h l).1).take 64
    all.zipIdx.filterMap fun w => if (all.take w.2).any fun v => v.inst.pos == w.1.inst.pos then none else some w.1

/-- Mark an execution of a hub item done (R285). -/
def State.markDone (s : State) (h l : Nat) (n : Inst) : State :=
  let r := s.hubRun h l
  let r := if n ∈ r.pend then { r with pend := r.pend.erase n }
    else { r with ahead := r.ahead ++ [n.pos], counts := tput 0 r.counts n.pos (r.count n.pos + 1) }
  s.updHub h fun x => x.setRun l (ListRun.settle (s.skipAt h l) ((s.hubList h l).length + 1) r)

/-- An item of a hub list completes: position and signal. -/
def State.hubItemDone (s : State) (h l : Nat) (n : Inst) (hd : Head) : State := (s.markDone h l n).hubItemSignal h hd.sig

end Sys2Proof.Machine
end

