-- ==== Sys2Proof/Machine/Array.lean ====
section
/-! DEFINITION. The matrix array (R68 to R115): pour items over their paths (R83 to R85), the arithmetic of passes, drains and
preloads, flags, parity, prologue and filler pours. An item runs whole in one command; R85 makes what it leaves the same. -/
namespace Sys2Proof.Machine

/-! ### Local-store operands -/

/-- Both reads of a range that runs past the end of local store and on from address 0. -/
def LsRead.join (x y : LsRead) : LsRead :=
  { bytes := x.bytes ++ y.bytes, fixed := x.fixed + y.fixed, bads := x.bads + y.bads
    bad := match x.bad with | some a => some a | none => y.bad }

/-- Read at a 23-bit local address (R145): addresses wrap. -/
def Cluster.rd (c : Cluster) (a len : Nat) : LsRead :=
  let a := a % 0x800000
  if a + len ≤ 0x800000 then lsRead c a len
  else (lsRead c a (0x800000 - a)).join (lsRead c 0 (len - (0x800000 - a)))

/-- Write at a 23-bit local address after what has been written. -/
def LsWrite.put (r : LsWrite) (a : Nat) (bs : List (Byte × Byte)) : LsWrite :=
  if r.bad.isSome then r
  else
    let a := a % 0x800000
    let n := 0x800000 - a
    let x := lsWrite r.cl a (bs.take n)
    let x := if x.bad.isSome || bs.length ≤ n then x
      else let y := lsWrite x.cl 0 (bs.drop n); { y with fixed := x.fixed + y.fixed }
    { x with fixed := r.fixed + x.fixed }

/-- The format of an operand. -/
def Operand.format (o : Operand) : Fmt := (Fmt.ofCode o.fmt).getD .f32

/-- A byte range of the 23-bit local address space (R145): one that runs past the end goes on from address 0. -/
def wrapRange (a len : Nat) : List (Nat × Nat) :=
  let a := a % 0x800000
  if a + len ≤ 0x800000 then [(a, len)] else [(a, 0x800000 - a), (0, len - (0x800000 - a))]

/-- The byte ranges of rows of an operand and of their scales (R281). -/
def Operand.ranges (o : Operand) (f : Fmt) (rows n : Nat) : List (Nat × Nat) :=
  ((List.range rows).flatMap fun r => wrapRange (o.addr + r * o.stride) (packedBytes f n)) ++
  (if o.mx then wrapRange o.scale (rows * cdiv n 32) else [])

/-- The values packed bytes and scale bytes spell (R30 to R38). -/
def rowValues (f : Fmt) (mx : Bool) (n : Nat) (b sc : List Byte) : List Num :=
  (unpackBits f.width n (leNat b)).zipIdx.map fun x =>
    if mx then decodeMx f (lget 0 sc (x.2 / 32)).toNat x.1 else decode f x.1

/-- One row of an operand: what was read, and its values. -/
def Cluster.rdRow (c : Cluster) (o : Operand) (f : Fmt) (r n : Nat) : LsRead × List Num :=
  let b := c.rd (o.addr + r * o.stride) (packedBytes f n)
  let sc := if o.mx then c.rd (o.scale + r * cdiv n 32) (cdiv n 32) else {}
  (b.join sc, rowValues f o.mx n b.bytes sc.bytes)

/-- Rows of an operand in order. -/
def Cluster.rdRows (c : Cluster) (o : Operand) (f : Fmt) (rows n : Nat) : LsRead × List (List Num) :=
  (List.range rows).foldl (fun acc r => let x := c.rdRow o f r n; (acc.1.join x.1, acc.2 ++ [x.2])) ({}, [])

/-- The ingot of an operand element under its piece: FULL, HI, MID, LO (R59, R81). -/
def pieceIngot (piece : Nat) (x : Num) : BitVec 22 :=
  match piece with
  | 0 => toIngot x
  | 1 => (splitPieces x).1
  | 2 => (splitPieces x).2.1
  | _ => (splitPieces x).2.2

/-- The product of a stationary or column piece and a moving or row piece (R44, R45, R60, R105). R60 names products of two pieces; where
one operand is FULL (of another format) the product is that of R45 with HI and that of the low pieces with MID and LO (DESIGN
CHOICE: the spec names no such product). -/
def pieceMul (pa pb : Nat) (a b : BitVec 22) : Num × Bool :=
  if pa = 0 && pb = 0 then ingotMul false a b
  else if pa ≤ 1 && pb ≤ 1 then ingotMul true a b
  else ingotMulLow a b

/-- Whether an ingot is NaN. -/
def ingotNan (i : BitVec 22) : Bool := ofIngot i = .nan

/-! ### Conversion of drained values -/

/-- Where a drained value goes: format (none for RAW), MX, rounding, overflow mode (R81, R89). -/
structure OutFmt where
  fmt : Option Fmt := none
  mx : Bool := false
  sr : Bool := false
  ovf : Bool := false
  deriving DecidableEq, Repr

/-- OUT of an item's fields (R281): code 0xF is RAW. -/
def OutFmt.of (code : Nat) (mx sr ovf : Bool) : OutFmt :=
  { fmt := if code = 0xF then none else some ((Fmt.ofCode code).getD .f32), mx := mx, sr := sr, ovf := ovf }

/-- Blocks of 32 of a list, the last one short (R36). -/
def blocks32 {α : Type} : Nat → List α → List (List α)
  | 0, _ => []
  | n + 1, l => if l.isEmpty then [] else l.take 32 :: blocks32 n (l.drop 32)

/-- A converted vector: packed bytes, scale bytes, and what each value raised (R52 to R57, R89, R573). -/
structure Drained where
  bytes : List Byte := []
  scales : List Byte := []
  raised : List Rounded := []
  deriving DecidableEq, Repr

/-- Convert a vector of binary32 words with the slice each takes (R89, R90). -/
def drainVec (o : OutFmt) (vs : List (W32 × Nat)) : Drained :=
  match o.fmt with
  | none => { bytes := vs.flatMap fun v => leBytes 4 v.1.toNat }
  | some f =>
    let xs := vs.map fun v => (f32 v.1, if o.sr then Rnd.sr v.2 else Rnd.rne)
    let bl := if o.mx then (blocks32 vs.length xs).map fun b => mxEncode f o.ovf b else []
    let rs := if o.mx then bl.flatMap Prod.snd else xs.map fun x => encode f x.2 o.ovf x.1
    { bytes := leBytes (packedBytes f rs.length) (packBits f.width (rs.map Rounded.bits))
      scales := bl.map fun b => BitVec.ofNat 8 b.1, raised := rs }

/-! ### What an item does -/

/-- The result of an item: the cluster, its flags, the bytes it read and wrote, corrections, and the first uncorrectable word
(address, partial write). -/
structure ItemRes where
  cl : Cluster
  flags : FlagSet := {}
  rd : List Byte := []
  wr : List Byte := []
  fixed : Nat := 0
  bads : Nat := 0
  bad : Option (Nat × Bool) := none
  deriving DecidableEq, Repr

/-- Take a read into a result: an uncorrectable word ends the item (R245). -/
def ItemRes.read (r : ItemRes) (x : LsRead) : ItemRes :=
  { r with rd := r.rd ++ x.bytes, fixed := r.fixed + x.fixed, bads := r.bads + x.bads
           bad := match r.bad with | some b => some b | none => x.bad.map fun a => (a, false) }

/-- Take a write into a result. -/
def ItemRes.write (r : ItemRes) (a : Nat) (b : List Byte) : ItemRes :=
  if r.bad.isSome then r
  else
    let w := ({ cl := r.cl } : LsWrite).put a (fullMask b)
    { r with cl := w.cl, wr := r.wr ++ b, fixed := r.fixed + w.fixed, bads := r.bads + b2n w.bad.isSome
             bad := w.bad.map fun x => (x, true) }

/-- Add flags to a result. -/
def ItemRes.flag (r : ItemRes) (f : FlagSet) : ItemRes := { r with flags := r.flags.join f }

/-- A table of ingots or registers rewritten over a rectangle by a function of (r, c). -/
def fillRect {α : Type} [DecidableEq α] (z : α) (t : Tbl α) (rows cols width : Nat) (f : Nat → Nat → α) : Tbl α :=
  (List.range rows).foldl (fun t r => (List.range cols).foldl (fun t c => tput z t (width * r + c) (f r c)) t) t

/-- Row parity of latches (R86): exclusive-or of the 128 ingots' bits, by row. -/
def latchParity (t : Tbl (BitVec 22)) : BitVec 128 :=
  t.foldl (fun p e => if parityOf 22 e.2.toNat then p ^^^ BitVec.ofNat 128 (2 ^ (e.1 / 128)) else p) 0

/-- Whether an ingot is finite. -/
def ingotFinite (i : BitVec 22) : Bool := match ofIngot i with | .fin _ _ _ => true | _ => false

/-- Rows (latch / 128) or columns (latch % 128) that hold a non-finite latch (R86). -/
def badLines (line : Nat → Nat) (t : Tbl (BitVec 22)) : BitVec 128 :=
  t.foldl (fun m e => if ingotFinite e.2 then m else m ||| BitVec.ofNat 128 (2 ^ line e.1)) 0

/-- Store a stationary block of ingots: latches outside the extent become +0, parity is computed, and the rows and columns with a
non-finite latch are marked (R78, R86). -/
def ArraySt.latchBlock (a : ArraySt) (nr nc piece : Nat) (rows : List (List Num)) : ArraySt :=
  let t := fillRect 0 [] nr nc 128 fun r c => pieceIngot piece (lget Num.zero (lget [] rows r) c)
  { a with latch := t, parity := latchParity t, badRows := badLines (· / 128) t, badCols := badLines (· % 128) t
           nr := nr, nc := nc, piece := piece }

/-- NaN flags over a block of ingots: row r, column c. -/
def nanFlags (loc : Nat → Nat → FlagLoc) (rows : List (List (BitVec 22))) : FlagSet :=
  rows.zipIdx.foldl (fun f r => r.1.zipIdx.foldl (fun f x => f.join (.ofNan (ingotNan x.1) (loc r.2 x.2))) f) {}

/-- LOAD (R78, R82, R86): the flags of the block it latches. -/
def loadItem (c : Cluster) (it : PourItem) : ItemRes :=
  let x := c.rdRows it.a it.a.format it.x it.y
  let r : ItemRes := ({ cl := c } : ItemRes).read x.1
  if r.bad.isSome then r
  else
    let ing := x.2.map fun row => row.map (pieceIngot it.pieceA)
    { r with cl := { c with arr := c.arr.latchBlock it.x it.y it.pieceA x.2 }
             flags := nanFlags (fun i j => { mode := 0, ord := i, a := i, b := j }) ing }

/-- Latch (r, c). -/
def ArraySt.latchAt (a : ArraySt) (r c : Nat) : BitVec 22 := tget 0 a.latch (128 * r + c)

/-- One accumulation of a tree sum into an edge register (R51, R74, R75): lane, register j, ordinal b. -/
def edgeAccum (seed : W64) (g : Nat) (op : W32) (lane b : Nat) (old : W32) (term : Num) : W32 × Bool × Bool :=
  accumulate old term (laneSlice seed 0x02 g lane op (b / 4) (b % 4))

/-- One row's or column's share of vector b of an F or D pass: the products against the 128 runners, the sum and the
accumulation (R70, R74, R75). code is 1 for F, 2 for D; i the row or column. -/
def edgeTerm (seed : W64) (g : Nat) (a : ArraySt) (it : PourItem) (b i : Nat) (x : List (BitVec 22)) (t : Tbl W32) :
    Tbl W32 × FlagSet :=
  let f := it.code = 1
  let ps := (List.range 128).map fun k =>
    pieceMul a.piece it.pieceA (if f then a.latchAt i k else a.latchAt k i) (lget 0 x k)
  let sum := treeSum (ps.map Prod.fst)
  let j := (it.eb + b) % 256
  let old := if it.clear then 0 else tget 0 t (256 * i + j)
  let lane := if f then i else 0x80 + i
  let acc := edgeAccum seed g (BitVec.ofNat 32 it.op) lane b old sum.1
  let loc := fun k => ({ mode := it.code, ord := b, a := i, b := k } : FlagLoc)
  let bad := (ps.zipIdx.find? fun p => p.1.2).map Prod.snd
  (tput 0 t (256 * i + j) acc.1,
    (((FlagSet.ofInv bad.isSome (loc (bad.getD 0))).join (.ofInv sum.2 (loc 0))).join (.ofInv acc.2.1 (loc j))).join
      (.ofOvf acc.2.2 (loc j)))

/-- An F or D pass of n vectors (R74, R75, R77, R78). -/
def edgePass (seed : W64) (g : Nat) (c : Cluster) (it : PourItem) (n : Nat) : ItemRes :=
  let a := c.arr
  let len := if it.code = 1 then a.nc else a.nr
  let wide := if it.code = 1 then a.nr else a.nc
  let x := c.rdRows it.a it.a.format n len
  let r : ItemRes := ({ cl := c } : ItemRes).read x.1
  if r.bad.isSome then r
  else
    let vecs := x.2.map fun v => v.map (pieceIngot it.pieceA)
    let start := if it.code = 1 then a.rowEdge else a.colEdge
    let res := vecs.zipIdx.foldl (fun acc v =>
      (List.range wide).foldl (fun acc i =>
        let e := edgeTerm seed g a it v.2 i v.1 acc.1
        (e.1, acc.2.join e.2)) acc) (start, ({} : FlagSet))
    let nan := nanFlags (fun b i => { mode := it.code, ord := b, a := i, b := 0 }) vecs
    let a := if it.code = 1 then { a with rowEdge := res.1 } else { a with colEdge := res.1 }
    { r with cl := { c with arr := a }, flags := nan.join res.2 }

/-- One site's share of vector pair b of a W pass (R51, R64, R76). -/
def siteTerm (seed : W64) (g : Nat) (it : PourItem) (b r c : Nat) (x y : BitVec 22) (t : Tbl W32) : Tbl W32 × FlagSet :=
  let p := pieceMul it.pieceA it.pieceB x y
  let old := if it.clear && b = 0 then 0 else tget 0 t (128 * r + c)
  let acc := accumulate old p.1 (laneSlice seed 0x01 g r (BitVec.ofNat 32 it.op) (b * 32 + c / 4) (c % 4))
  let loc : FlagLoc := { mode := 3, ord := b, a := r, b := c }
  (tput 0 t (128 * r + c) acc.1, (FlagSet.ofInv (p.2 || acc.2.1) loc).join (.ofOvf acc.2.2 loc))

/-- A W pass of n vector pairs (R76 to R78). -/
def sitePass (seed : W64) (g : Nat) (c : Cluster) (it : PourItem) (n : Nat) : ItemRes :=
  let xa := c.rdRows it.a it.a.format n it.x
  let xb := c.rdRows it.b it.b.format n it.y
  let r : ItemRes := (({ cl := c } : ItemRes).read xa.1).read xb.1
  if r.bad.isSome then r
  else
    let va := xa.2.map fun v => v.map (pieceIngot it.pieceA)
    let vb := xb.2.map fun v => v.map (pieceIngot it.pieceB)
    let res := (List.range n).foldl (fun acc b =>
      (List.range it.x).foldl (fun acc i => (List.range it.y).foldl (fun acc j =>
        let e := siteTerm seed g it b i j (lget 0 (lget [] va b) i) (lget 0 (lget [] vb b) j) acc.1
        (e.1, acc.2.join e.2)) acc) acc) (c.arr.site, ({} : FlagSet))
    let loc := fun b i => ({ mode := 3, ord := b, a := i, b := 0 } : FlagLoc)
    { r with cl := { c with arr := { c.arr with site := res.1 } }
             flags := ((nanFlags loc va).join (nanFlags loc vb)).join res.2 }

/-- Flags of a drained vector: ord its register number or row; the location by place in the vector. -/
def drainFlags (loc : Nat → FlagLoc) (raised : List Rounded) : FlagSet :=
  raised.zipIdx.foldl (fun f x => (f.join (.ofInv x.1.inv (loc x.2))).join (.ofOvf x.1.ovf (loc x.2))) {}

/-- The banks an edge item names. -/
def ArraySt.edge (a : ArraySt) (col : Bool) : Tbl W32 := if col then a.colEdge else a.rowEdge

/-- EDGE_DRAIN (R87, R89, R90). -/
def edgeDrain (seed : W64) (g : Nat) (c : Cluster) (it : PourItem) : ItemRes :=
  let o := OutFmt.of it.outFmt it.a.mx it.outSr it.outOvf
  (List.range it.n).foldl (fun r j =>
    let q := (it.eb + j) % 256
    let vs := (List.range it.x).map fun i =>
      (tget 0 (c.arr.edge it.col) (256 * i + q),
        laneSlice seed 0x02 g (if it.col then 0x80 + i else i) (BitVec.ofNat 32 it.op) (q / 4) (q % 4))
    let d := drainVec o vs
    ((r.write (it.a.addr + j * it.a.stride) d.bytes).write (it.a.scale + j * cdiv it.x 32) d.scales).flag
      (drainFlags (fun i => { mode := 4, ord := q, a := i, b := q }) d.raised)) { cl := c }

/-- SITE_DRAIN (R88 to R90). -/
def siteDrain (seed : W64) (g : Nat) (c : Cluster) (it : PourItem) : ItemRes :=
  let o := OutFmt.of it.outFmt it.a.mx it.outSr it.outOvf
  (List.range it.x).foldl (fun r i =>
    let vs := (List.range it.y).map fun j =>
      (tget 0 c.arr.site (128 * i + j), laneSlice seed 0x01 g i (BitVec.ofNat 32 it.op) (j / 4) (j % 4))
    let d := drainVec o vs
    ((r.write (it.a.addr + i * it.a.stride) d.bytes).write (it.a.scale + i * cdiv it.y 32) d.scales).flag
      (drainFlags (fun j => { mode := 6, ord := i, a := i, b := j }) d.raised)) { cl := c }

/-- The binary32 word a preload leaves (R91): any NaN becomes 0x7FC0_0000. -/
def preloadWord (n : Nat) : W32 × Bool :=
  if decode .f32 n = .nan then (0x7FC00000, true) else (BitVec.ofNat 32 n, false)

/-- EDGE_PRELOAD (R91). -/
def edgePreload (c : Cluster) (it : PourItem) : ItemRes :=
  (List.range it.n).foldl (fun r j =>
    let q := (it.eb + j) % 256
    let x := c.rd (it.a.addr + j * it.a.stride) (4 * it.x)
    let r := r.read x
    if r.bad.isSome then r
    else (unpackBits 32 it.x (leNat x.bytes)).zipIdx.foldl (fun r e =>
      let w := preloadWord e.1
      let a := r.cl.arr
      let a := if it.col then { a with colEdge := tput 0 a.colEdge (256 * e.2 + q) w.1 }
        else { a with rowEdge := tput 0 a.rowEdge (256 * e.2 + q) w.1 }
      { r with cl := { r.cl with arr := a } }.flag (.ofNan w.2 { mode := 5, ord := q, a := e.2, b := q })) r) { cl := c }

/-- SITE_PRELOAD (R91). -/
def sitePreload (c : Cluster) (it : PourItem) : ItemRes :=
  (List.range it.x).foldl (fun r i =>
    let x := c.rd (it.a.addr + i * it.a.stride) (4 * it.y)
    let r := r.read x
    if r.bad.isSome then r
    else (unpackBits 32 it.y (leNat x.bytes)).zipIdx.foldl (fun r e =>
      let w := preloadWord e.1
      let a := r.cl.arr
      { r with cl := { r.cl with arr := { a with site := tput 0 a.site (128 * i + e.2) w.1 } } }.flag
        (.ofNan w.2 { mode := 7, ord := i, a := i, b := e.2 })) r) { cl := c }

/-- The effect of an item of any code on its cluster; n is its count in force (R198). -/
def runItem (seed : W64) (g : Nat) (c : Cluster) (it : PourItem) (n : Nat) : ItemRes :=
  match it.code with
  | 0 => loadItem c it
  | 1 => edgePass seed g c it n
  | 2 => edgePass seed g c it n
  | 3 => sitePass seed g c it n
  | 4 => edgeDrain seed g c it
  | 5 => edgePreload c it
  | 6 => siteDrain seed g c it
  | _ => sitePreload c it

/-! ### Order -/

/-- Path of an item code (R83): 0 load, 1 issue, 2 edge, 3 site. -/
def pathOf (code : Nat) : Nat :=
  match code with
  | 0 => 0
  | 1 => 1
  | 2 => 1
  | 3 => 1
  | 4 => 2
  | 5 => 2
  | _ => 3

/-- Local-store ranges an item reads. -/
def PourItem.reads (it : PourItem) (nr nc : Nat) : List (Nat × Nat) :=
  match it.code with
  | 0 => it.a.ranges it.a.format it.x it.y
  | 1 => it.a.ranges it.a.format it.n nc
  | 2 => it.a.ranges it.a.format it.n nr
  | 3 => it.a.ranges it.a.format it.n it.x ++ it.b.ranges it.b.format it.n it.y
  | 5 => { it.a with mx := false }.ranges .f32 it.n it.x
  | 7 => { it.a with mx := false }.ranges .f32 it.x it.y
  | _ => []

/-- Local-store ranges an item writes. -/
def PourItem.writes (it : PourItem) : List (Nat × Nat) :=
  let f := if it.outFmt = 0xF then Fmt.f32 else (Fmt.ofCode it.outFmt).getD .f32
  match it.code with
  | 4 => it.a.ranges f it.n it.x
  | 6 => it.a.ranges f it.x it.y
  | _ => []

/-- Whether two sets of ranges share a byte. -/
def rangesMeet (x y : List (Nat × Nat)) : Bool := x.any fun a => y.any fun b => overlaps a.1 a.2 b.1 b.2

/-- Whether an edge item and an F or D pass touch a register in common (R84). -/
def edgeMeets (edge pass : PourItem) : Bool :=
  (edge.col == decide (pass.code = 2)) &&
  (List.range edge.n).any fun j => (List.range pass.n).any fun b => (edge.eb + j) % 256 == (pass.eb + b) % 256

/-- Whether a later item may run before an earlier one that has not run (R83 to R85). The extents are those of the LOAD before the
earlier one. -/
def mayPass (nr nc : Nat) (later earlier : PourItem) (lnr lnc : Nat) : Bool :=
  let unit := match pathOf later.code, pathOf earlier.code with
    | 0, 1 => false
    | 1, 0 => false
    | 1, 2 => later.code = 3 || !edgeMeets earlier later
    | 2, 1 => earlier.code = 3 || !edgeMeets later earlier
    | 1, 3 => later.code ≠ 3
    | 3, 1 => earlier.code ≠ 3
    | 0, 2 => true
    | 0, 3 => true
    | 2, 0 => true
    | 3, 0 => true
    | 2, 3 => true
    | 3, 2 => true
    | _, _ => false
  unit && !rangesMeet later.writes (earlier.reads nr nc) && !rangesMeet later.writes earlier.writes &&
    !rangesMeet (later.reads lnr lnc) earlier.writes

/-- An item with its operation id and addresses as its execution uses them (R267, R272). -/
def State.pourAt (s : State) (h : Head) (i : Nat) (it : PourItem) : PourItem :=
  let mv := fun (o : Operand) => { o with addr := h.at i 23 o.addr, scale := h.at i 23 o.scale }
  { it with op := h.op i (s.selOp it.opb it.op), a := mv it.a, b := mv it.b }

/-- Items from a position up to the next repeat marker, with their positions. -/
def itemsFrom {α : Type} : List (Entry α) → Nat → List (Nat × Head × α)
  | [], _ => []
  | .item h a :: t, p => (p, h, a) :: itemsFrom t (p + 1)
  | .rbegin _ _ _ _ :: _, _ => []
  | .rend _ :: _, _ => []

/-- Ordinal bookkeeping as the list position moves past an item (R113, R275): LOADs so far, items since the last. -/
def passItem (n : Nat × Nat) (code : Nat) : Nat × Nat := if code = 0 then (n.1 + 1, 0) else (n.1, n.2 + 1)

/-- Pour of an item, counted from 1 with 0 the prologue, and its ordinal, given what precedes it (R113, R275). -/
def itemNumber (n : Nat × Nat) (code : Nat) : Nat × Nat := if code = 0 then (n.1 + 1, 0) else (n.1, n.2 + 1)

/-- The POUR field of records (R113): the LOAD's ordinal from 0, saturating; 0xFFFF_FFFF for the prologue. -/
def pourField (pour : Nat) : Nat := if pour = 0 then 0xFFFFFFFF else min (pour - 1) 0xFFFFFFFE

/-- An execution of a pour item that is not done: where it stands, its header, and the item as it runs. -/
structure PourAt where
  inst : Inst
  head : Head
  raw : PourItem
  item : PourItem
  deriving DecidableEq, Repr

/-- The pour list of a cluster. -/
def State.pourList (s : State) (t k : Nat) : List (Entry PourItem) := lget [] (s.tileMould t).pours k

/-- Number the items from a position to the next marker, leaving out those done (R113). -/
def numberItems (r : ListRun) : List (Nat × Head × PourItem) → Nat × Nat → List (Inst × Head × PourItem)
  | [], _ => []
  | (p, h, it) :: t, n =>
    let k := itemNumber n it.code
    let rest := numberItems r t (passItem n it.code)
    if p ∈ r.ahead then rest else ({ pos := p, i := r.count p, pour := k.1, ord := k.2 }, h, it) :: rest

/-- The executions of a cluster's pour items that are not done, in list order: those from before the last marker, then those up to the
next (R83, R277). -/
def State.pourWindow (s : State) (t k : Nat) : List PourAt :=
  let r := (s.ltile t).run k
  let a := (s.cluster t k).arr
  let l := s.pourList t k
  let old : List (Inst × Head × PourItem) := r.pend.filterMap fun n => match l[n.pos]? with | some (Entry.item h it) => some (n, h, it) | _ => none
  (old ++ numberItems r (itemsFrom (l.drop r.pos) r.pos) (a.loads, a.items)).map fun x =>
    { inst := x.1, head := x.2.1, raw := x.2.2, item := s.pourAt x.2.1 x.1.i x.2.2 }

/-- The next item of a path with the earlier items not done, and the extent of the LOAD before each. -/
structure NextItem where
  at' : PourAt
  nr : Nat
  nc : Nat
  skipped : List (PourItem × Nat × Nat)
  deriving DecidableEq, Repr

/-- Find the next item of a path. -/
def findNext (path : Nat) : List PourAt → Nat × Nat → List (PourItem × Nat × Nat) → Option NextItem
  | [], _, _ => none
  | x :: t, e, sk =>
    if pathOf x.item.code = path then some { at' := x, nr := e.1, nc := e.2, skipped := sk }
    else findNext path t (if x.item.code = 0 then (x.item.x, x.item.y) else e) (sk ++ [(x.item, e)])

/-- The next item of a path of a cluster's array. -/
def State.nextItem (s : State) (t k path : Nat) : Option NextItem :=
  let a := (s.cluster t k).arr
  findNext path (s.pourWindow t k) (a.nr, a.nc) []

/-- Whether the interlocks let the next item of a path start (R83 to R85). -/
def NextItem.free (n : NextItem) : Bool := n.skipped.all fun y => mayPass y.2.1 y.2.2 n.at'.item y.1 n.nr n.nc

/-- Ordinal of an adjustable item among the adjustable items of its list (R198, R275: by list position). -/
def adjOrdinal {α : Type} (adj : α → Bool) (l : List (Entry α)) (pos : Nat) : Nat :=
  ((l.take pos).filterMap fun e => e.body?.bind fun p => if adj p then some () else none).length

/-- The count in force of an item: an adjustable item waits until it is set (R198). -/
def State.countInForce (s : State) (t k pos : Nat) (it : PourItem) : Option Nat :=
  if !it.adj then some it.n
  else
    let n := adjOrdinal PourItem.adj (s.pourList t k) pos
    let a := (s.cluster t k).arr.adj
    if thas a n then some (tget 0 a n) else none

/-- Move a list position past everything done, counting LOADs and items (fuel: items done ahead). -/
def settlePos (l : List (Entry PourItem)) : Nat → ListRun → Nat × Nat → ListRun × (Nat × Nat)
  | 0, r, n => (r, n)
  | k + 1, r, n =>
    if r.pos ∈ r.ahead then
      let code := match l[r.pos]? with | some (.item _ it) => it.code | _ => 1
      settlePos l k { r with pos := r.pos + 1, ahead := r.ahead.filter (· != r.pos) } (passItem n code)
    else (r, n)

/-- Record that an execution of an item is done (R272, R277). -/
def State.itemDone (s : State) (t k : Nat) (n : Inst) : State :=
  let l := s.pourList t k
  s.updLtile t fun x =>
    let r := x.run k
    let c := x.cluster k
    let r := if n ∈ r.pend then { r with pend := r.pend.erase n }
      else { r with ahead := r.ahead ++ [n.pos], counts := tput 0 r.counts n.pos (r.count n.pos + 1) }
    let z := settlePos l (r.ahead.length + 1) r (c.arr.loads, c.arr.items)
    (x.setRun k z.1).setCluster k { c with arr := { c.arr with loads := z.2.1, items := z.2.2 } }

/-! ### Flags, records and faults -/

/-- Collect an item's flags in its pour, or in the prologue (R109). -/
def ArraySt.collect (a : ArraySt) (pour ord : Nat) (f : FlagSet) (rd wr : List Byte) (tracing : Bool) : ArraySt :=
  let at' := fun (l : FlagLoc) => { l with item := ord }
  let f : FlagSet := { inv := f.inv.map at', ovf := f.ovf.map at', nan := f.nan.map at' }
  if pour = 0 then { a with prologue := a.prologue.join f }
  else
    let old := (a.pours.find? fun p => p.pour == pour).getD { pour := pour }
    let new := { old with flags := old.flags.join f
                          rd := if tracing then tset old.rd ord rd else old.rd
                          wr := if tracing then tset old.wr ord wr else old.wr }
    { a with pours := (a.pours.filter fun p => p.pour != pour) ++ [new] }

/-- The pour that a latch parity failure names (R111): the one whose LOAD filled the latches last; for a filler block before any LOAD,
the first (DESIGN CHOICE: filler pours have no number). -/
def ArraySt.latchPour (a : ArraySt) : Nat := max 1 a.latched

/-- A latch parity failure (R111, R572): a fault naming the lowest failing row; it counts as an uncorrected latch error. -/
def State.parityFault (s : State) (t k pour : Nat) : State :=
  let a := (s.cluster t k).arr
  let d := latchParity a.latch ^^^ a.parity
  let row := ((List.range 128).find? fun r => d.getLsbD r).getD 0
  let s := s.tileDross (s.phys t) 0x0A 1
  let s := s.updLtile t fun x => { x with pourFlags := x.pourFlags ||| BitVec.ofNat 16 (2 ^ (4 * k + 3)) }
  let s := s.updCluster t k fun c => { c with arr := { c.arr with stopped := true } }
  s.report t 0x04 [(64, s.stepNo), (6, t), (6, s.phys t), (2, k), (1, 0), (32, pourField pour), (9, row)]

/-- Whether the row parity still matches (R111). -/
def ArraySt.parityOk (a : ArraySt) : Bool := latchParity a.latch == a.parity

/-- The tile memory record of an array item (R574), as an UNCORRECTABLE fault. -/
def State.arrayMemFault (s : State) (t k : Nat) (n : Inst) (code : Nat) (bad : Nat × Bool) : State :=
  let s := s.updCluster t k fun c => { c with arr := { c.arr with stopped := true } }
  s.report t 0x03 [(64, s.stepNo), (6, t), (6, s.phys t), (2, k), (1, 0), (32, pourField n.pour), (13, n.ord), (4, code),
    (1, b2n bad.2), (23, bad.1)]

/-- The ramp code in force (R92): RAMP_0 counts only in a diagnostic replay with TEST_RAMP. -/
def State.rampOf (s : State) (code : Nat) : Nat :=
  let test := match s.crown.openStep with | some o => o.testRamp | none => false
  if code = 0 && !test then 2 else code

/-- Status an item leaves (R115): a LOAD begins the current pour; an item of the prologue shows before any LOAD has; the code of the last
item of the issue or load path, and the ordinal of the last of the issue path, stay shown while those paths hold none (DESIGN
CHOICE: R115 names only the item on the path). -/
def ArraySt.show (a : ArraySt) (n : Inst) (code ramp : Nat) : ArraySt :=
  let a := if code = 0 then { a with pourNo := BitVec.ofNat 32 (pourField n.pour), ramp := BitVec.ofNat 2 ramp, filler := false, latched := n.pour }
    else if n.pour = 0 && a.latched = 0 then { a with pourNo := 0xFFFFFFFF } else a
  let a := if pathOf code ≤ 1 then { a with itemCode := BitVec.ofNat 4 code } else a
  if pathOf code = 1 then { a with itemNo := BitVec.ofNat 13 n.ord } else a

/-- Run an item once nothing holds it: memory faults, flags, status, position, signal. -/
def State.runNext (s : State) (t k : Nat) (n : PourAt) (count : Nat) : State :=
  let it := n.item
  let r := runItem s.seed s.stepNo (s.cluster t k) it count
  let s := s.countLs t r.fixed r.bads
  match r.bad with
  | some b => (if b.2 then s.setCluster t k r.cl else s).arrayMemFault t k n.inst it.code b
  | none =>
    let a := (r.cl.arr.collect n.inst.pour n.inst.ord r.flags (if it.code ≤ 3 then r.rd else []) r.wr s.tracing).show n.inst it.code (s.rampOf it.ramp)
    ((s.setCluster t k { r.cl with arr := a }).itemDone t k n.inst).tileItemSignal t n.head.sig

/-- Whether an item of a cluster may start once its path comes to it and no interlock holds it: its words are read and its token is
there (R149, R269). -/
def State.pourReady (s : State) (t k : Nat) (n : PourAt) : Bool := s.entryRead t k n.inst.pos && s.waitMet t n.head n.inst.i

/-- The item that a path of an array holds: its next one, once its words are read and no interlock holds it (R83, R269). -/
def State.onPath (s : State) (t k path : Nat) : Option PourAt :=
  if s.crown.openStep.isNone || (s.cluster t k).arr.stopped then none
  else match s.nextItem t k path with
    | some n => if s.entryRead t k n.at'.inst.pos && n.free then some n.at' else none
    | none => none

/-- Whether an item on a path waits for a token, its count or the fill of a riser (R115, R149, R198, R299). -/
def State.pourWaits (s : State) (t k : Nat) (n : PourAt) : Bool :=
  let a := (s.cluster t k).arr
  !s.waitMet t n.head n.inst.i || (match s.countInForce t k n.inst.pos n.raw with
    | none => true
    | some c => s.checkSource t k ({ n.item with n := c }.reads a.nr a.nc) == .waits)

/-- One step of an array: the next item of the path of a code, where it is of that code and may start (R83 to R85, R111,
R149, R198, R269, R299). -/
def pourItem (code : Nat) (at' : ClusterAt) (s : State) : State :=
  let t := at'.tile.val
  let k := at'.cluster.val
  let s := s.updCluster t k fun c => c.strike at'.upsets
  let c := s.cluster t k
  match s.nextItem t k (pathOf code) with
  | none => s
  | some n =>
    let x := n.at'
    if x.item.code ≠ code || s.crown.openStep.isNone || c.arr.stopped || !s.pourReady t k x || !n.free then s
    else match s.countInForce t k x.inst.pos x.raw with
      | none => s
      | some count =>
        if code = 0 && (c.arr.latched ≠ 0 || c.arr.filler) && !c.arr.parityOk then s.parityFault t k c.arr.latchPour
        else match s.checkSource t k ({ x.item with n := count }.reads c.arr.nr c.arr.nc) with
          | .waits => s
          | .stale x => (s.staleRiser t k x).updCluster t k fun c => { c with arr := { c.arr with stopped := true } }
          | .ok => s.runNext t k x count

/-- LOAD (R71, R78, R86, R109, R111). -/
def execLoad (c : ClusterAt) (s : State) : Out := .next (pourItem 0 c s)

/-- PASS_F (R74). -/
def execPassF (c : ClusterAt) (s : State) : Out := .next (pourItem 1 c s)

/-- PASS_D (R75). -/
def execPassD (c : ClusterAt) (s : State) : Out := .next (pourItem 2 c s)

/-- PASS_W (R76). -/
def execPassW (c : ClusterAt) (s : State) : Out := .next (pourItem 3 c s)

/-- EDGE_DRAIN (R87). -/
def execEdgeDrain (c : ClusterAt) (s : State) : Out := .next (pourItem 4 c s)

/-- EDGE_PRELOAD (R91). -/
def execEdgePreload (c : ClusterAt) (s : State) : Out := .next (pourItem 5 c s)

/-- SITE_DRAIN (R88). -/
def execSiteDrain (c : ClusterAt) (s : State) : Out := .next (pourItem 6 c s)

/-- SITE_PRELOAD (R91). -/
def execSitePreload (c : ClusterAt) (s : State) : Out := .next (pourItem 7 c s)

/-! ### Ends of pours -/

/-- Whether a record of a flag has been sent, and the marks with one more sent (R112, R129). -/
def flagSent (sent : Bool × Bool × Bool) (flag : Nat) : Bool :=
  match flag with | 0 => sent.1 | 1 => sent.2.1 | _ => sent.2.2
def markSent (sent : Bool × Bool × Bool) (flag : Nat) : Bool × Bool × Bool :=
  match flag with | 0 => (true, sent.2) | 1 => (sent.1, true, sent.2.2) | _ => (sent.1, sent.2.1, true)

/-- Report one flag of a pour or prologue (R112, R113): counter 0x18 or 0x19, the flag's register bit, one record per flag,
cluster and step. -/
def State.pourFlag (s : State) (t k pour flag : Nat) (loc : Option FlagLoc) : State :=
  match loc with
  | none => s
  | some l =>
    let s := if flag < 2 then s.tileDross (s.phys t) (0x18 + flag) 1 else s
    let s := s.updLtile t fun x => { x with pourFlags := x.pourFlags ||| BitVec.ofNat 16 (2 ^ (4 * k + flag)) }
    if flagSent (s.cluster t k).arr.sent flag then s
    else
      let s := s.updCluster t k fun c => { c with arr := { c.arr with sent := markSent c.arr.sent flag } }
      s.record t 0x01 [(64, s.stepNo), (6, t), (6, s.phys t), (2, k), (32, pourField pour), (2, flag), (13, l.item), (4, l.mode),
        (8, l.ord), (8, l.a), (8, l.b)]

/-- Report the three flags of a pour or prologue. -/
def State.pourFlags (s : State) (t k pour : Nat) (f : FlagSet) : State :=
  ((s.pourFlag t k pour 0 f.inv).pourFlag t k pour 1 f.ovf).pourFlag t k pour 2 f.nan

/-- Whether every item of a pour, or of the prologue (0), is done and none can follow: a later LOAD is listed, or the list ends
before another marker (R109, R112). -/
def State.pourOver (s : State) (t k pour : Nat) : Bool :=
  let w := s.pourWindow t k
  let a := (s.cluster t k).arr
  (w.all fun x => x.inst.pour != pour) &&
    (decide (pour < a.loads) || (w.any fun x => decide (pour < x.inst.pour)) ||
      (markerFrom (s.pourList t k) ((s.ltile t).run k).pos).isNone)

/-- Whether the list is done. -/
def State.pourListDone (s : State) (t k : Nat) : Bool :=
  s.pourWindow t k = [] && (markerFrom (s.pourList t k) ((s.ltile t).run k).pos).isNone

/-- The open pour with the lowest number. -/
def oldestPour (l : List PourRun) : Option PourRun :=
  l.foldl (fun b p => match b with | none => some p | some q => if p.pour < q.pour then some p else some q) none

/-- POUR_END (R112): all items of the oldest open pour have finished. The last pour's parity is checked here (R111). -/
def execPourEnd (at' : ClusterAt) (s : State) : Out :=
  let t := at'.tile.val
  let k := at'.cluster.val
  let s := s.updCluster t k fun c => c.strike at'.upsets
  let a := (s.cluster t k).arr
  .next (match oldestPour a.pours with
    | none => s
    | some p =>
      if a.stopped || !s.pourOver t k p.pour || !(a.prologueDone || a.prologue = {}) then s
      else if a.latched = p.pour && s.pourListDone t k && !a.parityOk then s.parityFault t k p.pour
      else
        let s := s.updCluster t k fun c =>
          { c with arr := { c.arr with pours := c.arr.pours.filter fun q => q.pour != p.pour } }
        let s := s.pourFlags t k p.pour p.flags
        s.trace (t / 6) (tileAgent t k) (p.rd.flatMap Prod.snd) (p.wr.flatMap Prod.snd))

/-- PROLOGUE_END (R80, R109): all items before the first LOAD have finished. -/
def execPrologueEnd (at' : ClusterAt) (s : State) : Out :=
  let t := at'.tile.val
  let k := at'.cluster.val
  let s := s.updCluster t k fun c => c.strike at'.upsets
  let a := (s.cluster t k).arr
  .next (if s.crown.openStep.isNone || a.prologueDone || a.stopped || !s.pourOver t k 0 then s
    else
      let s := s.updCluster t k fun c => { c with arr := { c.arr with prologueDone := true } }
      s.pourFlags t k 0 a.prologue)

/-- The 256 filler vectors of a cluster (R100): BF16, 128 elements each, 256 bytes apart. -/
def Cluster.fillerVecs (c : Cluster) (vecs : Nat) : LsRead :=
  (c.rdRows { stride := 256, fmt := 1, addr := vecs } .bf16 256 128).1

/-- FILLER_POUR (R101, R102): the filler block is latched and its parity computed, and F passes run over the filler vectors, whose sums go
nowhere; nothing is counted. An uncorrectable word of the block or of a vector is the fault of R245: its record names the awaited LOAD
with code 8 (DESIGN CHOICE: a filler pour has no number). The pour's ramp is that of the awaited LOAD (DESIGN CHOICE). -/
def execFillerPour (at' : ClusterAt) (s : State) : Out :=
  let t := at'.tile.val
  let k := at'.cluster.val
  let s := s.updCluster t k fun c => c.strike at'.upsets
  let c := s.cluster t k
  .next (match s.nextItem t k 0, (lget none (s.tileMould t).filler k) with
    | some n, some (block, vecs) =>
      let x := n.at'
      let held := x.head.fillerOk && !s.waitMet t x.head x.inst.i && n.skipped.all (fun y => pathOf y.1.code ≠ 1)
      if s.crown.openStep.isNone || c.arr.stopped || !held || s.mouldSet.step.loadFloor = 0 || !(s.ltile t).cuff.floorReq then s
      else if (c.arr.latched ≠ 0 || c.arr.filler) && !c.arr.parityOk then s.parityFault t k c.arr.latchPour
      else
        let y := c.rdRows { stride := 256, fmt := 1, addr := block } .bf16 128 128
        let z := c.fillerVecs vecs
        match (match y.1.bad with | some b => some b | none => z.bad) with
        | some b => s.arrayMemFault t k x.inst 8 (b, false)
        | none => s.updCluster t k fun c =>
          { c with arr := { c.arr.latchBlock 128 128 0 y.2 with filler := true, ramp := BitVec.ofNat 2 (s.rampOf x.item.ramp) } }
    | _, _ => s)

end Sys2Proof.Machine
end

