-- ==== Sys2Proof/Machine/Flash.lean ====
section
/-! DEFINITION. Flash bytes (R478, R479), the sections a pattern header names (R480 to R482), and route blocks (R402). -/
namespace Sys2Proof.Machine

/-- A flash byte: an erased or absent one reads all ones (R499). -/
def State.flashByte (s : State) (a : Nat) : Byte := tget 0xFF s.flash a

/-- n flash bytes from an address. -/
def State.flashBytes (s : State) (a n : Nat) : List Byte := (List.range n).map fun i => s.flashByte (a + i)

/-- A little-endian number of n bytes at an address. -/
def State.flashNat (s : State) (a n : Nat) : Nat := leNat (s.flashBytes a n)

/-- Whether a section's bytes have their digest (R487). -/
def State.sectionOk (s : State) (x : Section) : Bool := beNat (sha512 (s.flashBytes x.offset x.length)) == x.digest

/-- The section of a type and index. -/
def Header.section? (h : Header) (type index : Nat) : Option Section :=
  h.sections.find? fun x => x.type == type && x.index == index

/-- Ranks that have a route block (R482). -/
def State.routeRanks (s : State) : Nat := ((s.header.section? 4 0).map fun x => x.length / 2176).getD 0

/-- A route block's fields (R402). -/
def decodeRoute (b : List Byte) : Route :=
  let n := fun o k => leNat ((b.drop o).take k)
  { route := b.take 2048
    wire := (List.range 16).map fun p => BitVec.ofNat 32 (n (2048 + 4 * p) 4)
    bcastPorts := n 2112 2, timeSrc := n 2114 1, timeServe := n 2116 2
    asym := (List.range 16).map fun p => sext 16 (n (2118 + 2 * p) 2) }

/-- The route block of a rank as the pattern holds it: none of a section whose digest fails (R487). -/
def State.flashRoute (s : State) (rank : Nat) : Route :=
  match s.header.section? 4 0 with
  | none => {}
  | some x => if !s.sectionOk x then {} else decodeRoute (s.flashBytes (x.offset + 2176 * rank) 2176)

/-- The route block in force: the loaded one, and before mould load the pattern's own for the device's rank (the wiring is needed
from order 9 on, R381). -/
def State.routeBlock (s : State) : Route := if s.loaded.loaded then s.loaded.route else s.flashRoute s.startup.rank.toNat

/-- The WIRE entry of a port: connected, far rank, far port (R402). -/
def State.wire (s : State) (h m : Nat) : Bool × Nat × Nat :=
  let w := (lget 0 s.routeBlock.wire (2 * h + m)).toNat
  (bit w 31, bits w 26 16, bits w 3 0)

end Sys2Proof.Machine
end

