-- ==== Sys2Proof/Machine/MouldFormat.lean ====
section
/-! DEFINITION. Reading moulds and the other sections of the pattern (R261 to R289, R335, R359, R365, R373, R403, R404, R483,
R529): the words of each structure to its fields. What answers none is a reserved kind, a wrong word count or a reserved field
that is not zero (R306). -/
namespace Sys2Proof.Machine

/-! ### Words -/

/-- Whether a 64-bit word has bits in some fields only. -/
def only (w : Nat) (fs : List (Nat × Nat)) : Bool := w &&& ((2 ^ 64 - 1) ^^^ fs.foldl (fun m f => m ||| ((2 ^ (f.1 + 1) - 1) ^^^ (2 ^ f.2 - 1))) 0) == 0

/-- Word n of an item's words, the header being word 0. -/
def wd (ws : List Nat) (n : Nat) : Nat := lget 0 ws n

/-- n words from an offset. -/
def wordsAt (rd : Nat → Nat) (off n : Nat) : List Nat := (List.range n).map fun i => rd (off + 8 * i)

/-- Offset in [31:0], length in [63:32]. -/
def span (w : Nat) : Nat × Nat := (bits w 31 0, bits w 63 32)

/-! ### Items -/

/-- The header of an item (R271) with its advance word (R272). -/
def decodeHead (tile : Bool) (w adv : Nat) : Option Head :=
  let die := bits w 43 40
  let dieOk : Bool := !bit w 45 || die == 0 || (if tile then die == 1 else decide (8 ≤ die ∧ die ≤ 13))
  if !dieOk then none
  else some
    { kind := bits w 63 56, words := bits w 55 48, wait := if bit w 46 then some (bits w 39 32, bits w 31 8) else none
      sig := if bit w 45 then some (die, bits w 7 0) else none, fillerOk := bit w 44
      adv := if bit w 47 then some { addr := sext 32 (bits adv 63 32), op := bits adv 31 16, wait := bits adv 15 8, epoch := bits adv 7 0 } else none }

/-- The entries of a list (R271, R274): a REPEAT_BEGIN may carry an advance word; `item` reads the words of one kind (header first, no advance word). Fuel: words. -/
def decodeList {α : Type} (tile : Bool) (item : Nat → List Nat → Option α) : Nat → List Nat → Option (List (Entry α))
  | _, [] => some []
  | 0, _ :: _ => none
  | k + 1, w :: t =>
    let ws := w :: t
    let n := bits w 55 48
    let adv := bit w 47
    if n = 0 || ws.length < n then none
    else
      let mine := ws.take n
      let args := if adv then mine.take (n - 1) else mine
      match decodeHead tile w (wd mine (n - 1)), decodeList tile item k (ws.drop n) with
      | some h, some rest =>
        if h.kind = 0x60 then
          let x := wd ws 1
          if args.length = 2 && only x [(63, 48), (47, 47), (31, 16)] then
            some (.rbegin h (bits x 63 48) (bit x 47) (bits x 31 16) :: rest)
          else none
        else if h.kind = 0x61 then (if n = 1 && !adv then some (.rend h :: rest) else none)
        else (item h.kind args).map fun a => .item h a :: rest
      | _, _ => none

/-- An operand word (R281). -/
def decodeOperand (w scale : Nat) : Operand :=
  { stride := bits w 63 40, fmt := bits w 39 36, mx := bit w 35, addr := bits w 22 0, scale := scale }

/-- Fields of pour words 1 and 2 that each code uses (R281), and whether it has operands A and B. -/
def pourUses : Nat → List (Nat × Nat) × List (Nat × Nat) × Bool
  | 0 => ([(54, 53), (50, 48)], [(63, 57), (56, 50)], false)
  | 1 => ([(63, 58), (57, 57), (56, 56), (54, 53), (47, 40), (39, 32), (31, 0)], [], false)
  | 2 => ([(63, 58), (57, 57), (56, 56), (54, 53), (47, 40), (39, 32), (31, 0)], [], false)
  | 3 => ([(63, 58), (57, 57), (56, 56), (54, 53), (52, 51), (47, 40), (31, 0)], [(63, 57), (56, 50)], true)
  | 4 => ([(63, 58), (55, 55), (47, 40), (39, 32), (31, 0)], [(63, 57), (49, 46), (45, 45), (44, 44)], false)
  | 5 => ([(55, 55), (47, 40), (39, 32)], [(63, 57)], false)
  | 6 => ([(63, 58), (31, 0)], [(63, 57), (56, 50), (49, 46), (45, 45), (44, 44)], false)
  | _ => ([], [(63, 57), (56, 50)], false)

/-- A pour item (R281). -/
def decodePour (kind : Nat) (ws : List Nat) : Option PourItem :=
  let c := kind - 0x20
  let u := pourUses c
  let w1 := wd ws 1
  let w2 := wd ws 2
  let op := [(63, 40), (39, 36), (35, 35), (22, 0)]
  -- a drain's format is OUT_FMT, and a preload reads binary32 words
  let opA := if c ≤ 3 then op else if c = 4 || c = 6 then [(63, 40), (35, 35), (22, 0)] else [(63, 40), (22, 0)]
  let scA := if c = 5 || c = 7 then [] else [(22, 0)]
  if kind < 0x20 || 0x27 < kind || ws.length ≠ 6 || !only w1 u.1 || !only w2 u.2.1 || !only (wd ws 3) opA || 3 < bits w1 50 48 ||
      !only (wd ws 4) (if u.2.2 then op else []) || !only (wd ws 5) (if u.2.2 then (45, 23) :: scA else scA) then none
  else some
    { code := c, opb := bits w1 63 58, adj := bit w1 57, clear := bit w1 56, col := bit w1 55, pieceA := bits w1 54 53
      pieceB := bits w1 52 51, ramp := bits w1 50 48, n := bits w1 47 40 + 1, eb := bits w1 39 32, op := bits w1 31 0
      x := bits w2 63 57 + 1, y := bits w2 56 50 + 1, outFmt := bits w2 49 46, outSr := bit w2 45, outOvf := bit w2 44
      a := decodeOperand (wd ws 3) (bits (wd ws 5) 22 0), b := decodeOperand (wd ws 4) (bits (wd ws 5) 45 23) }

/-- Fields of MV words 1 and 2 that each code uses (R282), and whether it has the operand of word 3 and the descriptor. -/
def mvUses : Nat → List (Nat × Nat) × List (Nat × Nat) × Bool × Bool
  | 0 => ([(55, 55), (54, 52)], [(49, 36)], true, false)
  | 1 => ([(63, 58), (57, 57), (56, 56), (55, 55), (54, 52), (51, 50), (31, 0)], [(63, 50), (49, 36), (35, 25)], false, true)
  | 2 => ([(63, 58), (57, 57), (56, 56), (55, 55), (54, 52), (51, 50), (31, 0)], [(63, 50), (49, 36), (35, 25)], false, true)
  | 3 => ([(63, 58), (49, 44), (31, 0)], [(35, 25), (24, 14)], true, false)
  | _ => ([], [(35, 25), (24, 14)], true, false)

/-- An MV item (R282). -/
def decodeMv (kind : Nat) (ws : List Nat) : Option MvItem :=
  let c := kind - 0x30
  let u := mvUses c
  let w1 := wd ws 1
  let w2 := wd ws 2
  let w3 := wd ws 3
  let w4 := wd ws 4
  if kind < 0x30 || 0x34 < kind || ws.length ≠ 5 || !only w1 u.1 || !only w2 u.2.1 ||
      !only w3 (if u.2.2.1 then [(63, 40), (39, 36), (35, 35), (22, 0)] else []) ||
      !only w4 ((if u.2.2.1 then [(22, 0)] else []) ++ if u.2.2.2 then [(63, 51)] else []) || bits w1 51 50 = 3 then none
  else some
    { code := c, opb := bits w1 63 58, adj := bit w1 57, clear := bit w1 56, set := bits w1 55 55, ncol := bits w1 54 52 + 1
      seg := 128 * 2 ^ bits w1 51 50, outFmt := bits w1 49 46, outSr := bit w1 45, outOvf := bit w1 44, op := bits w1 31 0
      nrow := bits w2 63 50 + 1, k := bits w2 49 36 + 1, ob := bits w2 35 25, count := bits w2 24 14 + 1
      a := decodeOperand w3 (bits w4 22 0), desc := bits w4 63 51 }

/-- A launch item (R283). -/
def decodeLaunch (kind : Nat) (ws : List Nat) : Option LaunchItem :=
  let w1 := wd ws 1
  let w2 := wd ws 2
  if kind ≠ 0x40 || ws.length ≠ 7 || !only w1 [(63, 4)] || !only w2 [(63, 40), (31, 0)] then none
  else some
    { entry := bits w1 63 50, first := bits w1 49 42, count := bits w1 41 34 + 1, opb := bits w1 33 28, epoch := bits w1 27 12
      riser := bits w1 11 4, sels := [bits w2 63 58, bits w2 57 52, bits w2 51 46, bits w2 45 40], op := bits w2 31 0
      args := (ws.drop 3).take 4 }

/-- A RUN_DESC item (R280). -/
def decodeRunDesc (kind : Nat) (ws : List Nat) : Option Nat :=
  if kind ≠ 0x50 || ws.length ≠ 2 || !only (wd ws 1) [(63, 51)] then none else some (bits (wd ws 1) 63 51)

/-- A stream descriptor (R278). Binary64 stands in hub items and stream headers only (R173). -/
def decodeDesc (ws : List Nat) : Option Desc :=
  let w0 := wd ws 0
  let w3 := wd ws 3
  let w4 := wd ws 4
  let w7 := wd ws 7
  let adr := [(63, 58), (41, 0)]
  if !only w0 [(63, 43)] || !only (wd ws 1) adr || !only (wd ws 2) adr || !only (wd ws 5) adr || !only (wd ws 6) adr ||
      !only w7 [(63, 55), (47, 32), (31, 24), (15, 8)] || 2 < bits w0 63 60 || 3 < bits w0 59 56 || 9 < bits w0 55 52 ||
      bits w0 49 48 = 3 || bits w0 47 46 = 3 || bits w3 63 32 = 0 || bits w3 31 0 = 0 then none
  else some
    { srcKind := bits w0 63 60, dstKind := bits w0 59 56, fmt := bits w0 55 52, mx := bit w0 51, tkick := bit w0 50
      srcBank := bits w0 49 48, dstBank := bits w0 47 46, cluster := bits w0 45 44, engine := bits w0 43 43
      srcSel := bits (wd ws 1) 63 58, src := bits (wd ws 1) 41 0, dstSel := bits (wd ws 2) 63 58, dst := bits (wd ws 2) 41 0
      rowElems := bits w3 63 32, rows := bits w3 31 0, srcStride := bits w4 63 32, dstStride := bits w4 31 0
      sscSel := bits (wd ws 5) 63 58, ssc := bits (wd ws 5) 41 0, dscSel := bits (wd ws 6) 63 58, dsc := bits (wd ws 6) 41 0
      ksigTok := bits w7 63 56, ksigEn := bit w7 55, kickLaunch := bits w7 47 32, kickLidx := bits w7 31 24, riser := bits w7 15 8 }

/-- A riser table entry (R295). -/
def decodeRiser (w : Nat) : Option Riser :=
  if !only w [(55, 43), (42, 41), (40, 23), (22, 0)] then none
  else some { addr := bits w 22 0, size := 64 * bits w 40 23, cluster := bits w 42 41, prologue := bits w 55 43 }

/-! ### Hub items -/

/-- Slot k of a TREE_NODE (R335). -/
def decodeSlot (w : Nat) : NodeSlot :=
  { wire := bits w 63 62, leaf := bit w 61, ltile := bits w 60 55, bkp := bit w 54, primary := bits w 47 36, backup := bits w 35 24 }

/-- The body of a TREE_NODE (R335, R337). -/
def decodeNode (ws : List Nat) : Option HubBody :=
  let w4 := wd ws 4
  let nin := bits w4 56 54 + 1
  let slots := (ws.drop 5).take 8
  if ws.length ≠ 13 || !only w4 [(63, 51), (47, 0)] || 1 < bits w4 63 62 || (slots.any fun w => !only w [(63, 54), (47, 24)]) ||
      (slots.drop nin).any (· ≠ 0) then none
  else some (.node
    { norm := bit w4 62, outWire := bits w4 61 60, outHub := bits w4 59 57, final := bit w4 53, gaunt := bit w4 52, gcmp := bit w4 51
      node := bits w4 47 32, shard := bits w4 31 0, slots := (slots.take nin).map decodeSlot })

/-- Selector and address (R287, R315). -/
def decodeSel (w : Nat) : Nat × Nat := (bits w 63 58, bits w 41 0)

/-- The body of an UPDATE (R315). -/
def decodeUpdate (ws : List Nat) : Option HubBody :=
  let w4 := wd ws 4
  let w14 := wd ws 14
  if ws.length ≠ 15 || !only w4 [(63, 55), (53, 45), (14, 0)] || !only (wd ws 7) [(63, 32)] || !only w14 [(59, 18)] ||
      ([8, 9, 10, 11, 12, 13].any fun i => !only (wd ws i) [(63, 58), (41, 0)]) then none
  else some (.update
    { recipe := bits w4 63 60, m1 := bit w4 59, wcSr := bit w4 58, wcOvf := bit w4 57, decay := bit w4 56, clip := bit w4 55
      lsSel := bits w4 53 48, digN := bits w4 47 45, cols := bits w4 14 0
      beta1 := BitVec.ofNat 32 (bits (wd ws 5) 63 32), beta2 := BitVec.ofNat 32 (wd ws 5), eps := BitVec.ofNat 32 (bits (wd ws 6) 63 32)
      lambda := BitVec.ofNat 32 (wd ws 6), tau := BitVec.ofNat 32 (bits (wd ws 7) 63 32), mom := decodeSel (wd ws 8)
      sec := decodeSel (wd ws 9), col := decodeSel (wd ws 10), wc := decodeSel (wd ws 11), nrm := decodeSel (wd ws 12)
      lrt := decodeSel (wd ws 13), digSlots := (List.range 7).map fun i => bits w14 (59 - 6 * i) (54 - 6 * i) })

/-- The body of a LADLE (R359, R360). -/
def decodeLadle (ws : List Nat) : Option HubBody :=
  let w4 := wd ws 4
  let nout := bits w4 54 51
  let outs := (List.range 8).map fun i => let x := bits (wd ws (5 + i / 4)) (59 - 15 * (i % 4)) (45 - 15 * (i % 4)); (bits x 14 12, bits x 11 0)
  if ws.length ≠ 7 || !only w4 [(63, 50), (41, 0)] || !only (wd ws 5) [(59, 0)] || !only (wd ws 6) [(59, 0)] || bits w4 56 55 = 3 || 8 < nout ||
      (nout = 0 && !bit w4 57 && !bit w4 50) then none
  else some (.ladle (bits w4 63 58) (bit w4 57) (bits w4 56 55) (bit w4 50) (bits w4 41 0) (outs.take nout))

/-- The body of an item by its kind and the list it stands in (R285): 0 FENCE, 1 REDUCE, 2 UPDATE, 3 and 4 PORT0 and PORT1, 5
STREAM. -/
def decodeBody (l kind : Nat) (ws : List Nat) : Option HubBody :=
  let w4 := wd ws 4
  if l = 1 && kind = 0x82 then decodeNode ws
  else if l = 2 && kind = 0x83 then decodeUpdate ws
  else if l = 5 && kind = 0x84 then decodeLadle ws
  else if (l = 3 || l = 4) && kind = 0x85 then
    (if ws.length ≠ 5 || !only w4 [(63, 58), (47, 32)] || 1 < bits w4 60 59 || bits w4 47 32 = 0 then none
     else some (.portSend (bits w4 63 61) (bit w4 59) (bit w4 58) (bits w4 47 32)))
  else if (l = 3 || l = 4) && kind = 0x86 then
    (if ws.length ≠ 5 || !only w4 [(63, 61)] || bits w4 63 62 = 3 then none else some (.portRecv (bits w4 63 62) (bit w4 61)))
  else if l = 5 && kind = 0x87 then
    (if ws.length ≠ 5 || !only w4 [(41, 0)] then none else some (.ckptSend (bits w4 41 0)))
  else if l = 5 && kind = 0x88 then
    (if ws.length ≠ 4 then none
     else some (.tier (BitVec.ofNat 64 (wd ws 1), BitVec.ofNat 64 (wd ws 2), BitVec.ofNat 64 (wd ws 3))))
  else none

/-- A hub item (R286, R287). -/
def decodeHubItem (l kind : Nat) (ws : List Nat) : Option HubItem :=
  let w1 := wd ws 1
  let w2 := wd ws 2
  let w3 := wd ws 3
  if l = 0 then
    (if kind ≠ 0x80 || ws.length ≠ 3 || !only w2 [(63, 56)] then none
     else some { body := .fence (bits w1 63 48) (bits w1 47 0) (bits w2 63 56) })
  else if l = 5 && kind = 0x81 then
    (if ws.length ≠ 2 || !only w1 [(56, 30), (26, 0)] then none
     else some { body := .plateClear (bit w1 56) (bits w1 55 30) (bits w1 26 0) })
  else if !only w1 [(63, 56), (41, 0)] || !only w2 [(63, 4)] || !only w3 [(63, 58), (42, 0)] || bits w1 57 56 = 3 then none
  else (decodeBody l kind ws).map fun b =>
    { sel := bits w1 63 58, bankSel := bits w1 57 56, addr := bits w1 41 0, elems := bits w2 63 32, fmt := bits w2 31 28
      epIn := bits w2 27 16, epOut := bits w2 15 4, peerSel := bits w3 63 58, peer := bits w3 42 32, op := bits w3 31 0, body := b }

/-! ### Moulds -/

/-- All of a list, or none. -/
def allSome {α : Type} : List (Option α) → Option (List α)
  | [] => some []
  | none :: _ => none
  | some a :: t => (allSome t).map (a :: ·)

/-- A tile mould (R276): `base` is its offset in the mould set, `addr` its place in the hub's mould area. -/
def decodeTile (rd : Nat → Nat) (base addr r c t : Nat) : Option TileMould :=
  let w0 := rd base
  let n := bits (rd (base + 8)) 12 0
  let dir := (List.range 21).map fun i => span (rd (base + 64 + 8 * i))
  let sec := fun (i : Nat) => let d := lget (0, 0) dir i; wordsAt rd (base + d.1) d.2
  let lists := fun {α : Type} (i k : Nat) (item : Nat → List Nat → Option α) =>
    allSome ((List.range k).map fun j => decodeList true item (sec (i + j)).length (sec (i + j)))
  let descs := allSome ((List.range n).map fun i => decodeDesc (((sec 0).drop (8 * i)).take 8))
  let risers := allSome ((sec 1).map decodeRiser)
  let fill := sec 20
  if !only w0 [(63, 48)] || bits w0 63 58 ≠ r || bits w0 57 52 ≠ t || bits w0 51 48 ≠ c || !only (rd (base + 8)) [(12, 0)] || 4096 < n ||
      ((List.range 6).any fun i => rd (base + 16 + 8 * i) ≠ 0) || (sec 0).length ≠ 8 * n || 255 < (sec 1).length || fill.length ≠ 4 ||
      (fill.any fun w => !only w [(45, 0)]) then none
  else
    match descs, risers, lists 2 4 decodePour, lists 6 2 decodeMv, lists 8 4 decodeLaunch, lists 12 8 decodeRunDesc with
    | some d, some rs, some p, some m, some l, some st => some
      { role := r, ltile := t, cls := c, descs := d, risers := rs, pours := p, mvs := m, launches := l, streams := st
        filler := fill.map fun w => if w = 0 then none else some (bits w 22 0, bits w 45 23)
        listAt := (dir.drop 2).take 18 |>.map (fun d => (addr + d.1, 8 * d.2)), words := (List.range 18).map fun i => sec (2 + i) }
    | _, _, _, _, _, _ => none

/-- A tile mould with other words in one of its lists (R269). Words that spell no list leave the loaded one (DESIGN CHOICE). -/
def TileMould.withWords (m : TileMould) (l : Nat) (ws : List Nat) : TileMould :=
  let put := fun {α : Type} (ls : List (List (Entry α))) (k : Nat) (item : Nat → List Nat → Option α) =>
    match decodeList true item ws.length ws with
    | some x => lset ls k x
    | none => ls
  let m := { m with words := lset m.words l ws }
  if l < 4 then { m with pours := put m.pours l decodePour }
  else if l < 6 then { m with mvs := put m.mvs (l - 4) decodeMv }
  else if l < 10 then { m with launches := put m.launches (l - 6) decodeLaunch }
  else { m with streams := put m.streams (l - 10) decodeRunDesc }

/-- A hub mould (R285). The header and directory follow the tile mould's form: ROLE, hub and CLASS in word 0, and from byte 64 one
word each for the endpoint table, the tagged-range table and the six lists (DESIGN CHOICE: R285 names the parts and no layout). -/
def decodeHub (rd : Nat → Nat) (base r c h : Nat) : Option HubMould :=
  let w0 := rd base
  let sec := fun (i : Nat) => let d := span (rd (base + 64 + 8 * i)); wordsAt rd (base + d.1) d.2
  let tag := sec 1
  if !only w0 [(63, 48)] || bits w0 63 58 ≠ r || bits w0 57 52 ≠ h || bits w0 51 48 ≠ c || tag.length % 2 ≠ 0 then none
  else (allSome ((List.range 6).map fun l => decodeList false (decodeHubItem l) (sec (2 + l)).length (sec (2 + l)))).map fun ls =>
    { endpoints := (sec 0).map (BitVec.ofNat 64), lists := ls
      tagged := (List.range (tag.length / 2)).map fun i => (bits (wd tag (2 * i)) 41 0, wd tag (2 * i + 1)) }

/-- A class-table entry (R265). -/
def decodeClass (rd : Nat → Nat) (off : Nat) : Option ClassEntry :=
  let w0 := rd off
  if !only w0 [(49, 0)] || ((List.range 4).any fun i => rd (off + 32 + 8 * i) ≠ 0) then none
  else some
    { maxLen := bits w0 31 0, mbCount := bits w0 47 32, present := bit w0 48, chunked := bit w0 49, chunkCap := bits (rd (off + 8)) 31 0
      tokenCap := bits (rd (off + 8)) 63 32, expBase := rd (off + 16), expChunk := rd (off + 24) }

/-- The step mould (R289, R549). -/
def decodeStep (rd : Nat → Nat) (off : Nat) : Option StepMould :=
  let w0 := rd off
  let w1 := rd (off + 8)
  let w2 := rd (off + 16)
  let w3 := rd (off + 24)
  let loss := [bits w2 47 32, bits w2 63 48, bits w3 15 0, bits w3 31 16]
  if !only w1 [(39, 0), (55, 48)] || !only w3 [(31, 0)] || ((List.range 28).any fun i => rd (off + 32 + 8 * i) ≠ 0) || bits w1 7 0 < 2 ||
      100 < bits w1 7 0 || 1 < bits w1 15 8 || 1 < bits w1 31 16 || 90 < bits w1 39 32 || 47 < bits w1 55 48 || 600000 < bits w2 31 0 then none
  else some
    { coord := bits w0 15 0, ckptEvery := bits w0 31 16, digestEvery := bits w0 47 32, gauntletT := bits w0 63 48
      deadlineFactor := bits w1 7 0, halt := bit w1 8, replayOnRestart := bit w1 16, loadFloor := bits w1 39 32, partnerSel := bits w1 55 48
      softStartMs := bits w2 31 0, loss := loss.map fun x => if bit x 15 then some (bits x 14 12, bits x 11 0) else none }

/-! ### Mould sets -/

/-- The pieces of a mould set that hub h's area receives (R268), by offset and bytes, in the order of the directories. -/
def areaPieces (rd : Nat → Nat) (h : Nat) : List (Nat × Nat) :=
  let dir := span (rd 24)
  let img := span (rd 32)
  let roles := bits (rd 8) 39 32
  let dies := (List.range 6).map (6 * h + ·) ++ [48 + h]
  let at' := fun (d : Nat × Nat) (i : Nat) => if 8 * i + 8 ≤ d.2 then span (rd (d.1 + 8 * i)) else (0, 0)
  let moulds := (List.range roles).flatMap fun r => (List.range 9).flatMap fun c => dies.map fun d => at' dir ((r * 9 + c) * 56 + d)
  let images := (List.range roles).flatMap fun r => (List.range 6).flatMap fun t => (List.range 4).map fun k =>
    at' img ((r * 48 + 6 * h + t) * 4 + k)
  ((0, 256) :: span (rd 120) :: span (rd 40) :: moulds ++ images).filter fun p => p.2 ≠ 0

/-- Each piece's address in the area: one after the other, each on a 64-byte boundary (DESIGN CHOICE: R268 gives no layout). -/
def placePieces : Nat → List (Nat × Nat) → List (Nat × Nat × Nat)
  | _, [] => []
  | a, p :: t => (p.1, p.2, a) :: placePieces (a + (p.2 + 63) / 64 * 64) t

/-- A mould set (R261 to R268): none where a structure breaks its layout. -/
def decodeSet (rd : Nat → Nat) : Option MouldSet :=
  let w1 := rd 8
  let roles := bits w1 39 32
  let ranks := bits w1 63 48
  let areas := (List.range 8).map fun n => let w := rd (56 + 8 * n); (bits w 41 0, 2 ^ 20 * bits w 63 48)
  let place := (List.range 8).map fun h => placePieces (lget (0, 0) areas h).1 (areaPieces rd h)
  let addr := fun (h off : Nat) => ((lget [] place h).find? fun p => p.1 == off).map (fun p => p.2.2) |>.getD 0
  let dir := span (rd 24)
  let img := span (rd 32)
  let bind := span (rd 40)
  let at' := fun (d : Nat × Nat) (i : Nat) => if 8 * i + 8 ≤ d.2 then span (rd (d.1 + 8 * i)) else (0, 0)
  let keys := (List.range roles).flatMap fun r => (List.range 9).flatMap fun c => (List.range 56).map fun d => (r, c, d, at' dir ((r * 9 + c) * 56 + d))
  let have' := keys.filter fun k => k.2.2.2.2 ≠ 0
  let tiles := allSome ((have'.filter fun k => decide (k.2.2.1 < 48)).map fun k =>
    (decodeTile rd k.2.2.2.1 (addr (k.2.2.1 / 6) k.2.2.2.1) k.1 k.2.1 k.2.2.1).map fun m => ((k.1, k.2.1, k.2.2.1), m))
  let hubs := allSome ((have'.filter fun k => decide (48 ≤ k.2.2.1)).map fun k =>
    (decodeHub rd k.2.2.2.1 k.1 k.2.1 (k.2.2.1 - 48)).map fun m => ((k.1, k.2.1, k.2.2.1 - 48), m))
  let images := (List.range roles).flatMap fun r => (List.range 48).flatMap fun t => (List.range 4).filterMap fun k =>
    let p := at' img ((r * 48 + t) * 4 + k)
    if p.2 = 0 then none else some ((r, t, k), (wordsAt rd p.1 (p.2 / 8)).map (BitVec.ofNat 64))
  let bad := bits (rd 0) 31 0 ≠ 0x4D530059 || bits (rd 0) 47 32 ≠ 1 || !only w1 [(31, 0), (39, 32), (63, 48)] ||
    bits w1 23 16 < 1 || 8 < bits w1 23 16 || 1 < bits w1 31 24 || roles < 1 || 64 < roles || ranks < 1 || 2048 < ranks ||
    (span (rd 120)).2 ≠ 576 || ((List.range 16).any fun i => rd (128 + 8 * i) ≠ 0) || bind.2 ≠ 384 * ranks || (span (rd 48)).2 ≠ 256 ||
    ((List.range 8).any fun n => !only (rd (56 + 8 * n)) [(41, 0), (63, 48)]) ||
    ((List.range 8).any fun h => (lget (0, 0) areas h).1 + (lget (0, 0) areas h).2 < ((lget [] place h).getLast?.map fun p => p.2.2 + p.2.1).getD 0)
  if bad then none
  else
    match tiles, hubs, allSome ((List.range 9).map fun c => decodeClass rd ((span (rd 120)).1 + 64 * c)), decodeStep rd (span (rd 48)).1 with
    | some ts, some hs, some cs, some st => some
      { mapping := bits w1 15 0, contract := bits (rd 0) 63 48, features := BitVec.ofNat 64 (rd 16), ranks := ranks, classes := cs
        areas := areas, step := st, tiles := ts, hubs := hs, images := images
        bindings := (List.range ranks).map fun r => (wordsAt rd (bind.1 + 384 * r) 48).map (BitVec.ofNat 64) }
    | _, _, _, _ => none

/-! ### Other sections -/

/-- The PLACEMENT section (R483). -/
def decodePlacement (rd : Nat → Nat) : Placement :=
  let w0 := rd 0
  let rec' := fun (h i : Nat) => rd (8 + 128 * h + 8 * i)
  let area := fun (h i : Nat) => (bits (rec' h i) 41 0, rec' h (i + 1))
  let range := fun (i : Nat) => let o := 8 + 1024 + 16 * i; ({ kind := bits (rd o) 63 62, base := bits (rd o) 41 0, size := rd (o + 8) } : PlaceRange)
  { fettlePeriod := bits w0 63 56, fettleEn := bit w0 55, slowReq := bits w0 2 0
    hubs := (List.range 8).map fun h =>
      { fl0 := area h 0, fl1 := area h 2, spill := area h 4, partner := area h 6, trace := area h 8
        ranges := (List.range (bits (rec' h 10) 63 32)).map fun i => range (bits (rec' h 10) 31 0 + i) } }

/-- A re-shard table in a section of so many bytes (R373). -/
def decodeReshard (rd : Nat → Nat) (len : Nat) : Reshard :=
  let w := rd 0
  { fromMap := bits w 63 48, toMap := bits w 47 32, rounds := bits w 31 16, scratchSlot := bits w 5 0
    entries := (List.range (min (rd 8) ((len - 16) / 32))).map fun i =>
      let o := 16 + 32 * i
      { round := bits (rd o) 63 48, srcRank := bits (rd o) 42 32, dstRank := bits (rd o) 10 0, src := bits (rd (o + 8)) 41 0
        dst := bits (rd (o + 16)) 41 0, bytes := rd (o + 24) } }

/-- The TIME section (R529). -/
def decodeTime (rd : Nat → Nat) : TimeSection :=
  { domain := bits (rd 0) 7 0, udp := bit (rd 0) 8, ppsMode := bits (rd 0) 10 9, asym := sext 16 (bits (rd 0) 31 16), mac := bits (rd 8) 47 0
    ipv4 := BitVec.ofNat 32 (rd 16), prefixLen := bits (rd 16) 39 32 }

end Sys2Proof.Machine
end

