-- ==== Sys2Proof/Machine/Mv.lean ====
section
/-! DEFINITION. The matrix-vector path (R116 to R131): MV items in list order, each whole in one command (R125: what it leaves
is the same), flags, parity and records. -/
namespace Sys2Proof.Machine

/-- The cluster whose local store a region's items name. -/
def mvCluster (r : Nat) : Nat := 2 * r + b2n (Config.mvSecond r)

/-- Element e of column c of a latch set (R116). -/
def MvSt.latchAt (m : MvSt) (set c e : Nat) : BitVec 22 := tget 0 m.latch (131072 * set + 16384 * c + e)

/-- Parity of every latch segment of a set, from its latches (R116). -/
def mvParity (t : Tbl (BitVec 22)) : Tbl Bool :=
  t.foldl (fun p e => if parityOf 22 e.2.toNat then tput false p (e.1 / 512) (!tget false p (e.1 / 512)) else p) []

/-- Let upsets strike MV latches (R116): parity does not follow. -/
def MvSt.strike (m : MvSt) (hits : List (Nat × Nat × Nat × Nat)) : MvSt :=
  { m with latch := hits.foldl (fun t h =>
      let k := 131072 * h.1 + 16384 * h.2.1 + h.2.2.1
      tput 0 t k (tget 0 t k ^^^ BitVec.ofNat 22 (2 ^ h.2.2.2))) m.latch }

/-- mv_slice of R123. -/
def mvSlice (seed : W64) (g : Nat) (op : W32) (o t c : Nat) : Nat :=
  let b := (t * 8 + o % 8) * 8 + c
  laneSlice seed 0x02 g (0x100 + o / 8) op (b / 4) (b % 4)

/-- The result of an MV item: cluster, half-unit, flags, corrections, uncorrectable word. -/
structure MvRes where
  cl : Cluster
  mv : MvSt
  flags : FlagSet := {}
  rd : List Byte := []
  fixed : Nat := 0
  bads : Nat := 0
  bad : Option (Nat × Bool) := none
  deriving DecidableEq, Repr

/-- A location of an MV flag (R129): t, column, register. Of several, an item names the smallest t, then column, then register, before t and
the register are reduced modulo 256 (DESIGN CHOICE: R110 orders array locations only). -/
def mvLoc (code t c o : Nat) : FlagLoc := { mode := code, ord := t, a := c, b := o }

/-- VLOAD (R118): columns 0 to NCOL - 1, elements 0 to LEN - 1; the rest of the set becomes +0. A NaN it latches is located at ORD 0 and,
in LOC_B, the element modulo 256 (DESIGN CHOICE: a VLOAD has no t and no register). -/
def vloadItem (c : Cluster) (m : MvSt) (it : MvItem) : MvRes :=
  let x := c.rdRows it.a it.a.format it.ncol it.k
  if x.1.bad.isSome then
    { cl := c, mv := m, fixed := x.1.fixed, bads := x.1.bads, bad := x.1.bad.map fun a => (a, false) }
  else
    let lo := 131072 * it.set
    let ing := x.2.map fun v => v.map toIngot
    let t := ing.zipIdx.foldl (fun t v => v.1.zipIdx.foldl (fun t e => tput 0 t (lo + 16384 * v.2 + e.2) e.1) t)
      (dropRange m.latch lo 131072)
    let fl := ing.zipIdx.foldl (fun f v => v.1.zipIdx.foldl (fun f e =>
      f.join (.ofNan (ingotNan e.1) (mvLoc 0 0 v.2 e.2))) f) ({} : FlagSet)
    let par := dropRange m.parity (256 * it.set) 256
    let new := mvParity (t.filter fun e => decide (lo ≤ e.1 ∧ e.1 < lo + 131072))
    { cl := c, mv := { m with latch := t, parity := new.foldl (fun p e => tput false p e.1 e.2) par }, flags := fl
      fixed := x.1.fixed }

/-- Scale bytes that n elements of rows of a descriptor carry (R279). -/
def scaleBytes (rowElems n : Nat) : Nat := n / rowElems * cdiv rowElems 32 + cdiv (n % rowElems) 32

/-- The weight ingots of a run, row-major (R38, R279): element number e of the stream. -/
def weightAt (d : Desc) (els : List Nat) (sc : List Byte) (e : Nat) : BitVec 22 :=
  let f := (Fmt.ofCode d.fmt).getD .f32
  let n := lget 0 els e
  toIngot (if d.mx then decodeMx f (lget 0 sc (e / d.rowElems * cdiv d.rowElems 32 + e % d.rowElems / 32)).toNat n else decode f n)

/-- Accumulate a term into register o of column c (R51, R121 to R123), cleared first where the item says so. -/
def mvAccum (seed : W64) (g : Nat) (it : MvItem) (t c o : Nat) (ps : List (Num × Bool)) (acc : Tbl W32) : Tbl W32 × FlagSet :=
  let sum := treeSum (ps.map Prod.fst)
  let old := if it.clear && t = 0 then 0 else tget 0 acc (2048 * c + o)
  let r := accumulate old sum.1 (mvSlice seed g (BitVec.ofNat 32 it.op) o t c)
  let loc := mvLoc it.code t c o
  (tput 0 acc (2048 * c + o) r.1,
    (FlagSet.ofInv ((ps.any Prod.snd) || sum.2 || r.2.1) loc).join (.ofOvf r.2.2 loc))

/-- RUN_N (R120, R121): rows of n, their segments in ascending t, the columns. A segment has SEG lanes; past K its weights are +0. -/
def runNItem (seed : W64) (g : Nat) (m : MvSt) (it : MvItem) (n : Nat) (w : Nat → BitVec 22) : Tbl W32 × FlagSet :=
  (List.range n).foldl (fun z i => (List.range (cdiv it.k it.seg)).foldl (fun z t =>
    let ks := (List.range it.seg).map (it.seg * t + ·)
    let ws := ks.map fun k => if k < it.k then w (i * it.k + k) else 0
    let z := (z.1, z.2.join (.ofNan (ws.any ingotNan) (mvLoc 1 t 0 (it.ob + i))))
    (List.range it.ncol).foldl (fun z c =>
      let ps := (ks.zip ws).map fun x => ingotMul false x.2 (m.latchAt it.set c x.1)
      let r := mvAccum seed g it t c (it.ob + i) ps z.1
      (r.1, z.2.join r.2)) z) z) (m.acc, {})

/-- RUN_T (R120, R122): row groups of G = 512 / SEG rows in ascending t, each output element and column. The rows past n are +0. -/
def runTItem (seed : W64) (g : Nat) (m : MvSt) (it : MvItem) (n : Nat) (w : Nat → BitVec 22) : Tbl W32 × FlagSet :=
  let gr := 512 / it.seg
  (List.range (cdiv n gr)).foldl (fun z t => (List.range it.k).foldl (fun z k =>
    let is := (List.range gr).map (gr * t + ·)
    let ws := is.map fun i => if i < n then w (i * it.k + k) else 0
    let z := (z.1, z.2.join (.ofNan (ws.any ingotNan) (mvLoc 2 t 0 (it.ob + k))))
    (List.range it.ncol).foldl (fun z c =>
      let ps := (is.zip ws).map fun x => ingotMul false x.2 (m.latchAt it.set c x.1)
      let r := mvAccum seed g it t c (it.ob + k) ps z.1
      (r.1, z.2.join r.2)) z) z) (m.acc, {})

/-- ACC_DRAIN (R126): register o's eight columns at ADDR + (o - OB) x STRIDE; MX blocks along the registers of a column, whose scale
bytes stand column after column from SCALE, ceil(COUNT / 32) for each (DESIGN CHOICE: R282 gives the address only). Registers past
2,047 are those of the next column, and past the last column +0 (DESIGN CHOICE: no rule rejects or wraps OB + COUNT > 2,048). -/
def accDrainItem (seed : W64) (g : Nat) (c : Cluster) (m : MvSt) (it : MvItem) : MvRes :=
  let f := OutFmt.of it.outFmt it.a.mx it.outSr it.outOvf
  let words := fun k => (List.range it.count).map fun j =>
    (tget 0 m.acc (2048 * k + it.ob + j), mvSlice seed g (BitVec.ofNat 32 it.op) (it.ob + j) 0 k)
  let cols := (List.range 8).map fun k => drainVec f (words k)
  let rows := (List.range it.count).map fun j =>
    match f.fmt with
    | none => (List.range 8).flatMap fun k => leBytes 4 (tget 0 m.acc (2048 * k + it.ob + j)).toNat
    | some e => leBytes (packedBytes e 8) (packBits e.width (cols.map fun d => (lget {} d.raised j).bits))
  let fl := cols.zipIdx.foldl (fun fl d => fl.join (drainFlags (fun j => mvLoc 3 0 d.2 (it.ob + j)) d.1.raised)) ({} : FlagSet)
  let w := rows.zipIdx.foldl (fun (w : LsWrite) r => w.put (it.a.addr + r.2 * it.a.stride) (fullMask r.1)) { cl := c }
  let w := cols.zipIdx.foldl (fun (w : LsWrite) d => w.put (it.a.scale + d.2 * cdiv it.count 32) (fullMask d.1.scales)) w
  { cl := w.cl, mv := m, flags := fl, fixed := w.fixed, bads := b2n w.bad.isSome, bad := w.bad.map fun a => (a, true) }

/-- ACC_PRELOAD (R91, R126). Registers past 2,047 are those of the next column, as in an ACC_DRAIN. -/
def accPreloadItem (c : Cluster) (m : MvSt) (it : MvItem) : MvRes :=
  (List.range it.count).foldl (fun (r : MvRes) j =>
    if r.bad.isSome then r
    else
      let x := c.rd (it.a.addr + j * it.a.stride) 32
      let r := { r with fixed := r.fixed + x.fixed, bads := r.bads + x.bads, bad := x.bad.map fun a => (a, false) }
      if r.bad.isSome then r
      else (unpackBits 32 8 (leNat x.bytes)).zipIdx.foldl (fun (r : MvRes) e =>
        let w := preloadWord e.1
        { r with mv := { r.mv with acc := tput 0 r.mv.acc (2048 * e.2 + it.ob + j) w.1 }
                 flags := r.flags.join (.ofNan w.2 (mvLoc 4 0 e.2 (it.ob + j))) }) r) { cl := c, mv := m }

/-- An item with its operation id and addresses as its execution uses them (R267, R272). -/
def State.mvAt (s : State) (h : Head) (i : Nat) (it : MvItem) : MvItem :=
  { it with op := h.op i (s.selOp it.opb it.op), a := { it.a with addr := h.at i 23 it.a.addr, scale := h.at i 23 it.a.scale } }

/-- The MV list of a region. -/
def State.mvList (s : State) (t r : Nat) : List (Entry MvItem) := lget [] (s.tileMould t).mvs r

/-- Rows in force of a run: an adjustable one waits until it is set (R198, R282). -/
def State.rowsInForce (s : State) (t r pos : Nat) (it : MvItem) : Option Nat :=
  if !it.adj then some it.nrow
  else
    let n := adjOrdinal MvItem.adj (s.mvList t r) pos
    let a := ((s.ltile t).mv r).adj
    if thas a n then some (tget 0 a n) else none

/-- Local-store ranges an MV item reads. -/
def MvItem.reads (it : MvItem) : List (Nat × Nat) :=
  match it.code with
  | 0 => it.a.ranges it.a.format it.ncol it.k
  | 4 => { it.a with mx := false }.ranges .f32 it.count 8
  | _ => []

/-- Report one flag of an MV item (R128, R129). The record's ITEM, and the POUR of an item that is no run, have no stated
value: they are free values. -/
def State.mvFlag (s : State) (t r : Nat) (run : Option Nat) (flag : Nat) (loc : Option FlagLoc) : State :=
  match loc with
  | none => s
  | some l =>
    let s := if flag < 2 then s.tileDross (s.phys t) (0x18 + flag) 1 else s
    let s := s.updLtile t fun x => { x with mvFlags := x.mvFlags ||| BitVec.ofNat 8 (2 ^ (4 * r + flag)) }
    let m := (s.ltile t).mv r
    if flagSent m.sent flag then s
    else
      let s := s.updLtile t fun x => x.setMv r { m with sent := markSent m.sent flag }
      let item := s.drawFree
      let pour := match run with | some n => (BitVec.ofNat 64 n, item.2) | none => item.2.drawFree
      pour.2.record t 0x02 [(64, s.stepNo), (6, t), (6, s.phys t), (2, r), (32, pour.1.toNat), (2, flag), (13, item.1.toNat),
        (4, l.mode), (8, l.ord), (8, l.a), (8, l.b)]

/-- Report an MV item's flags. -/
def State.mvFlags (s : State) (t r : Nat) (run : Option Nat) (f : FlagSet) : State :=
  ((s.mvFlag t r run 0 f.inv).mvFlag t r run 1 f.ovf).mvFlag t r run 2 f.nan

/-- The lowest latch segment that a run read and whose parity fails (R128), as set, column, segment. -/
def MvSt.badSegment (m : MvSt) (it : MvItem) (elems : Nat) : Option Nat :=
  let now := mvParity m.latch
  ((List.range it.ncol).flatMap fun c => (List.range (cdiv elems 512)).map fun g => 256 * it.set + 32 * c + g).find? fun k =>
    tget false now k != tget false m.parity k

/-- A latch parity failure of a run (R128, R572). -/
def State.mvParityFault (s : State) (t r run loc : Nat) : State :=
  let s := s.tileDross (s.phys t) 0x0A 1
  let s := s.updLtile t fun x =>
    { x.setMv r { x.mv r with stopped := true } with mvFlags := x.mvFlags ||| BitVec.ofNat 8 (2 ^ (4 * r + 3)) }
  s.report t 0x04 [(64, s.stepNo), (6, t), (6, s.phys t), (2, r), (1, 1), (32, run), (9, loc)]

/-- The tile memory record of an MV item (R574). -/
def State.mvMemFault (s : State) (t r code : Nat) (bad : Nat × Bool) : State :=
  let n := ((s.ltile t).mv r).items
  let s := s.updLtile t fun x => x.setMv r { x.mv r with stopped := true }
  s.report t 0x03 [(64, s.stepNo), (6, t), (6, s.phys t), (2, r), (1, 1), (32, n), (13, 0), (4, code), (1, b2n bad.2), (23, bad.1)]

/-- Move past an item that is done, with its status (R131) and its signal. ITEM is the position in the list, repeat markers counted
(DESIGN CHOICE). -/
def State.mvDone (s : State) (t r : Nat) (h : Head) (it : MvItem) (m : MvSt) : State :=
  let run := it.code = 1 || it.code = 2
  let m := { m with
    runNo := if run then BitVec.ofNat 32 m.runs else m.runNo
    setNo := if run then it.set = 1 else m.setNo
    runs := if run then m.runs + 1 else m.runs
    itemCode := BitVec.ofNat 4 it.code
    itemNo := BitVec.ofNat 12 ((s.ltile t).run (4 + r)).pos
    items := m.items + 1 }
  (s.updLtile t fun x => (x.setMv r m).setRun (4 + r) (x.run (4 + r)).advance).tileItemSignal t h.sig

/-- The intake's elements for a run of n rows, when all of them have arrived (R119, R278): weights, scales, and what is left. -/
def MvSt.takeWeights (m : MvSt) (d : Desc) (desc elems : Nat) : Option (List Byte × List Byte × MvSt) :=
  let f := (Fmt.ofCode d.fmt).getD .f32
  let q := tget ([], []) m.intake desc
  let nb := packedBytes f elems
  let ns := if d.mx then scaleBytes d.rowElems elems else 0
  if q.1.length < nb || q.2.length < ns then none
  else some (q.1.take nb, q.2.take ns, { m with intake := tput ([], []) m.intake desc (q.1.drop nb, q.2.drop ns) })

/-- A run whose weights have arrived (R121, R122, R127, R128). -/
def State.mvRun (s : State) (t r : Nat) (h : Head) (it : MvItem) (n : Nat) : State :=
  let m := (s.ltile t).mv r
  let d := lget {} (s.tileMould t).descs it.desc
  match m.takeWeights d it.desc (n * it.k) with
  | none => s
  | some (wb, sb, m1) =>
    let els := unpackBits ((Fmt.ofCode d.fmt).getD .f32).width (n * it.k) (leNat wb)
    let w := weightAt d els sb
    let z := if it.code = 1 then runNItem s.seed s.stepNo m1 it n w else runTItem s.seed s.stepNo m1 it n w
    let run := m.runs
    let s := s.mvDone t r h it { m1 with acc := z.1 }
    let s := s.mvFlags t r (some run) z.2
    let s := s.trace (t / 6) (tileAgent t (4 + r)) (wb ++ sb) []
    match m.badSegment it (if it.code = 1 then it.k else n) with
    | none => s
    | some k => s.mvParityFault t r run k

/-- An item that reads or writes local store. A NaN that a VLOAD latches is reported at the VLOAD's own end, with its code (DESIGN CHOICE:
R128 has flags per run, drain or preload, and a VLOAD in the place of the LOAD). -/
def State.mvLocal (s : State) (t r : Nat) (h : Head) (it : MvItem) : State :=
  let k := mvCluster r
  match s.checkSource t k it.reads with
  | .waits => s
  | .stale x => s.staleRiser t (4 + r) x
  | .ok =>
    let c := s.cluster t k
    let m := (s.ltile t).mv r
    let z := match it.code with
      | 0 => vloadItem c m it
      | 3 => accDrainItem s.seed s.stepNo c m it
      | _ => accPreloadItem c m it
    let s := (s.setCluster t k z.cl).countLs t z.fixed z.bads
    match z.bad with
    | some b => s.mvMemFault t r it.code b
    | none => (s.mvDone t r h it z.mv).mvFlags t r none z.flags

/-- One step of a region's MV list: its next item, where it is of the code named and may start (R125, R149, R198, R269). -/
def mvItem (code : Nat) (a : MvAt) (s : State) : State :=
  let t := a.tile.val
  let r := a.region.val
  let s := s.updCluster t (mvCluster r) fun c => c.strike a.upsets
  let s := s.updLtile t fun x => x.setMv r ((x.mv r).strike a.mvLatch)
  let l := 4 + r
  let lr := (s.ltile t).run l
  match s.tileMarker t l, (s.mvList t r)[lr.pos]? with
  | some _, some (.item h it) =>
    if it.code ≠ code || ((s.ltile t).mv r).stopped then s
    else
      let it' := s.mvAt h (lr.count lr.pos) it
      if code = 1 || code = 2 then
        match s.rowsInForce t r lr.pos it with
        | none => s
        | some n => s.mvRun t r h it' n
      else s.mvLocal t r h it'
  | _, _ => s

/-- VLOAD (R118). -/
def execVload (m : MvAt) (s : State) : Out := .next (mvItem 0 m s)

/-- RUN_N (R121). -/
def execRunN (m : MvAt) (s : State) : Out := .next (mvItem 1 m s)

/-- RUN_T (R122). -/
def execRunT (m : MvAt) (s : State) : Out := .next (mvItem 2 m s)

/-- ACC_DRAIN (R126). -/
def execAccDrain (m : MvAt) (s : State) : Out := .next (mvItem 3 m s)

/-- ACC_PRELOAD (R126). -/
def execAccPreload (m : MvAt) (s : State) : Out := .next (mvItem 4 m s)

end Sys2Proof.Machine
end

