-- ==== Sys2Proof/Machine/Stream.lean ====
section
/-! DEFINITION. Stream engines (R216, R278 to R280): descriptor runs, their requests, halts (R246), completion with signals
(R151) and riser tags (R297). -/
namespace Sys2Proof.Machine

/-! ### Runs -/

/-- A descriptor's address on one side: selector, literal, bank (R278), plus what an advance or a kick adds. -/
def State.descAddr (s : State) (kind sel lit bank : Nat) (add : Int) : Nat :=
  if kind = 1 then wrap 42 ((s.selAddr sel lit : Int) + s.bankAdd bank + add)
  else if kind = 0 then wrap 23 ((s.selAddr sel lit : Int) + add)
  else s.selAddr sel lit % 4096

/-- Bytes to the next 256-byte granule on a side that is memory; no limit on the other sides (R216). -/
def granuleLeft (kind a : Nat) : Option Nat := if kind = 1 then some (256 - a % 256) else none

/-- Cut a contiguous move of so many bytes, of which so many bits are elements, into pieces that each lie within one granule of either
memory side (fuel: pieces). -/
def cutChunks (sk dk : Nat) (scale : Bool) (row : Nat) : Nat → Nat → Nat → Nat → Nat → List Chunk
  | 0, _, _, _, _ => []
  | n + 1, src, dst, len, bits =>
    if len = 0 then []
    else
      let k := min len (min ((granuleLeft sk src).getD len) ((granuleLeft dk dst).getD len))
      { src := src, dst := dst, len := k, bits := min bits (8 * k), scale := scale, row := row } ::
        cutChunks sk dk scale row n (src + k) (dst + k) (len - k) (bits - 8 * k)

/-- The pieces of a run (R216, R279): the elements row by row, then the scale stream. -/
def runChunks (d : Desc) (src dst ssc dsc elems : Nat) : List Chunk :=
  let f := (Fmt.ofCode d.fmt).getD .f32
  let data := (runRows d.rowElems elems).flatMap fun r =>
    let n := packedBytes f r.2
    cutChunks d.srcKind d.dstKind false r.1 (n + 1) (src + r.1 * d.srcStride) (dst + r.1 * d.dstStride) n (r.2 * f.width)
  let ns := if d.mx then scaleBytes d.rowElems elems else 0
  data ++ cutChunks d.srcKind d.dstKind true 0 (ns + 1) ssc dsc ns (8 * ns)

/-- The bytes of a piece as its destination gets them: the unused slots of a last group hold zero codes (R35). -/
def Chunk.clip (c : Chunk) (b : List Byte) : List Byte := if 8 * c.len ≤ c.bits then b else leBytes b.length (leNat b % 2 ^ c.bits)

/-- A run of an engine by its number. -/
def Engine.run? (e : Engine) (id : Nat) : Option DescRun := e.runs.find? fun r => r.id == id

/-- Replace a run. -/
def Engine.setRun (e : Engine) (r : DescRun) : Engine := { e with runs := e.runs.map fun x => if x.id = r.id then r else x }

/-- Remove a run. -/
def Engine.dropRun (e : Engine) (id : Nat) : Engine := { e with runs := e.runs.filter fun x => x.id != id }

/-- Replace a run of a tile's engine. -/
def State.setDescRun (s : State) (t e : Nat) (r : DescRun) : State := s.updLtile t fun x => x.setEngine e ((x.engine e).setRun r)

/-- Elements that the pieces before number n carry (R246: the element offset reached). -/
def DescRun.reached (r : DescRun) (n : Nat) : Nat :=
  let w := ((Fmt.ofCode r.fmt).getD .f32).width
  min r.elems ((((r.chunks.take n).filter fun c => !c.scale).map Chunk.len).sum * 8 / w)

/-- A channel halt (R245, R246): the descriptor stops and signals nothing further; a CHANNEL_HALT fault with its halt record. -/
def State.halt (s : State) (t e : Nat) (r : DescRun) (chunk addr : Nat) (write : Bool) : State :=
  let s := s.tileDross (s.phys t) 0x0C 1
  let s := s.updLtile t fun x => x.setEngine e ((x.engine e).dropRun r.id)
  s.report t 0x02 [(64, s.stepNo), (6, t), (6, s.phys t), (2, r.cluster), (1, e % 2), (13, r.desc), (64, r.reached chunk),
    (42, addr), (1, b2n write)] (some 0x05)

/-- Deliver the bytes of piece n of a run to its destination; none for a halt at a local-store address (R216, R243). -/
def State.deliver (s : State) (t e : Nat) (r : DescRun) (n : Nat) (c : Chunk) (b : List Byte) : State × Option Nat :=
  let p := s.phys t
  match r.dstKind with
  | 0 =>
    let w := ({ cl := s.cluster t r.cluster } : LsWrite).put c.dst (fullMask b)
    ((s.setCluster t r.cluster w.cl).countLs t w.fixed (b2n w.bad.isSome), w.bad)
  | 1 =>
    let s := s.pushReq (p / 7) (ingressTile p) { agent := .engine t e r.id n true, kind := .write (b.map some), addr := c.dst }
    (s.updLtile t fun x => x.setEngine e
      (match (x.engine e).run? r.id with | some y => (x.engine e).setRun { y with writes := y.writes + 1 } | none => x.engine e), none)
  | 3 =>
    (s.updLtile t fun x =>
      let m := x.mv (r.cluster / 2)
      let q := tget ([], []) m.intake r.desc
      let q := if c.scale then (q.1, q.2 ++ b) else (q.1 ++ b, q.2)
      x.setMv (r.cluster / 2) { m with intake := tset m.intake r.desc q }, none)
  | _ => (s, none)

/-- Add the elements of a finished run to its hub endpoint (R288). -/
def State.deliverHub (s : State) (t : Nat) (r : DescRun) : State :=
  let f := (Fmt.ofCode r.fmt).getD .f32
  let parts := r.chunks.zip (r.got.map Prod.snd)
  let data := (parts.filter fun x => !x.1.scale).flatMap Prod.snd
  let sc := (parts.filter fun x => x.1.scale).flatMap Prod.snd
  let els := toElems f r.mx r.rowElems r.elems data sc
  s.pushElems (t / 6) r.dst els

/-- Insert a piece that came back, by number. -/
def insertGot (l : List (Nat × List Byte)) (n : Nat) (b : List Byte) : List (Nat × List Byte) :=
  (l.filter fun x => x.1 < n) ++ (n, b) :: l.filter fun x => n < x.1

/-- Move every piece that is in order to the destination (R216: in element order). A hub endpoint takes the stream when all
of it is there and it has credit (R288). Fuel: pieces. -/
def State.pump (s : State) (t e id : Nat) : Nat → State
  | 0 => s
  | k + 1 =>
    match ((s.ltile t).engine e).run? id with
    | none => s
    | some r =>
      if r.dstKind = 2 then
        if r.next < r.chunks.length && r.got.length = r.chunks.length && s.credit (t / 6) r.dst then
          let all := ((r.chunks.zip (r.got.map Prod.snd)).filter fun x => !x.1.scale).flatMap Prod.snd
          (s.deliverHub t r).setDescRun t e { r with next := r.chunks.length, got := [], data := if s.tracing then all else [] }
        else s
      else match r.chunks[r.next]?, r.got.find? fun g => g.1 == r.next with
        | some c, some g =>
          let b := c.clip g.2
          let data := if s.tracing && !c.scale then r.data ++ b else r.data
          let s := s.setDescRun t e { r with next := r.next + 1, got := r.got.filter fun x => x.1 != r.next, data := data }
          match s.deliver t e r r.next c b with
          | (s, some a) => s.halt t e r r.next a true
          | (s, none) => s.pump t e id k
        | _, _ => s

/-- A piece has come back from memory. -/
def State.pieceBack (s : State) (t e id n : Nat) (data : Option (List Byte)) (badAddr : Nat) : State :=
  match ((s.ltile t).engine e).run? id with
  | none => s
  | some r =>
    match data with
    | none => s.halt t e r n badAddr false
    | some b => (s.setDescRun t e { r with got := insertGot r.got n b }).pump t e id (r.chunks.length + 1)

/-- Read every piece of a local-store source at once, up to the first uncorrectable word. -/
def State.readLocal (s : State) (t e id : Nat) (r : DescRun) : State :=
  let c := s.cluster t r.cluster
  let rs := r.chunks.map fun x => c.rd x.src x.len
  let ok := (rs.takeWhile fun x => x.bad.isNone)
  let s := s.countLs t ((rs.map LsRead.fixed).sum) ((rs.map LsRead.bads).sum)
  let s := s.setDescRun t e { r with got := ok.zipIdx.map fun x => (x.2, x.1.bytes) }
  let s := s.pump t e id (r.chunks.length + 1)
  match rs[ok.length]? with
  | none => s
  | some x => match ((s.ltile t).engine e).run? id with
    | none => s
    | some r => s.halt t e r ok.length (x.bad.getD 0) false

/-- The tag a riser fill will take from a memory source: that of the tagged range holding the whole source range (R297). -/
def State.rangeTag (s : State) (lo hi : Nat) : Tag :=
  match addrHome lo with
  | none => .empty
  | some (h, _, _) =>
    let rs := s.taggedRanges h
    let keys := rs.zipIdx.flatMap fun r => [(2 * r.2, r.1.1), (2 * r.2 + 1, r.1.1 + s.bankSpan)].map fun k => (k.1, k.2, k.2 + r.1.2)
    match keys.find? fun k => decide (k.2.1 ≤ lo ∧ hi ≤ k.2.2) with
    | none => .empty
    | some k => tget .empty (s.hub h).tags k.1

/-- The tag of a local source that lies wholly within one riser of the same cluster (R297). -/
def State.localTag (s : State) (t k lo hi : Nat) : Tag :=
  match (s.tileMould t).risers.zipIdx.find? fun r => r.1.cluster == k && decide (r.1.addr ≤ lo ∧ hi ≤ r.1.addr + r.1.size) with
  | none => .empty
  | some r => tget .empty (s.ltile t).risers r.2

/-- Start a run of a descriptor (R216, R280): its number, its pieces, its reads. off and count are a kick's; add an advance. -/
def State.startRun (s : State) (t e desc off count : Nat) (add : Int) (sig : Option (Nat × Nat)) : State :=
  let d := lget {} (s.tileMould t).descs desc
  let elems := if count = 0 then d.rows * d.rowElems else count
  let so : Int := if d.offsetSrc then off else 0
  let dO : Int := if d.offsetSrc then 0 else off
  let src := s.descAddr d.srcKind d.srcSel d.src d.srcBank (add + so)
  let dst := s.descAddr d.dstKind d.dstSel d.dst d.dstBank (add + dO)
  let ssc := s.descAddr d.srcKind d.sscSel d.ssc d.srcBank add
  let dsc := s.descAddr d.dstKind d.dscSel d.dsc d.dstBank add
  let chunks := runChunks d src dst ssc dsc elems
  let lo := ((chunks.filter fun c => !c.scale).map Chunk.src).foldl min src
  let hi := ((chunks.filter fun c => !c.scale).map fun c => c.src + c.len).foldl max src
  let tag := if d.srcKind = 1 then s.rangeTag lo hi else if d.srcKind = 0 then s.localTag t d.cluster lo hi else .empty
  let id := ((s.ltile t).engine e).started
  let r : DescRun :=
    { id := id, desc := desc, srcKind := d.srcKind, dstKind := d.dstKind, cluster := d.cluster, fmt := d.fmt, mx := d.mx
      elems := elems, rowElems := d.rowElems, src := src, dst := dst, chunks := chunks
      tag := if d.srcKind = 2 then none else some tag, fill := d.riser, sig := sig }
  let s := s.updLtile t fun x =>
    let g := x.engine e
    x.setEngine e { g with runs := g.runs ++ [r], started := g.started + 1 }
  match d.srcKind with
  | 0 => s.readLocal t e id r
  | 1 =>
    let p := s.phys t
    chunks.zipIdx.foldl (fun s c =>
      s.pushReq (p / 7) (ingressTile p) { agent := .engine t e id c.2 false, kind := .read c.1.len, addr := c.1.src }) s
  | _ => s

/-- Local source ranges of a list run, for its riser check (R299). -/
def State.descLocal (s : State) (t desc : Nat) (add : Int) : List (Nat × Nat) :=
  let d := lget {} (s.tileMould t).descs desc
  if d.srcKind ≠ 0 then []
  else
    let src := s.descAddr 0 d.srcSel d.src 0 add
    let ssc := s.descAddr 0 d.sscSel d.ssc 0 add
    (runChunks d src 0 ssc 0 (d.rows * d.rowElems)).map fun c => (c.src, c.len)

/-- RUN_DESC (R280, R299): the next item of an engine's stream list. -/
def execRunDesc (a : EngineAt) (s : State) : Out :=
  let t := a.tile.val
  let e := a.engine.val
  let s := s.updCluster t (e / 2) fun c => c.strike a.upsets
  let l := 10 + e
  let r := (s.ltile t).run l
  .next (match s.tileMarker t l, (lget [] (s.tileMould t).streams e)[r.pos]? with
    | some _, some (.item h desc) =>
      let add := h.addr (r.count r.pos)
      if 8 ≤ ((s.ltile t).engine e).runs.length then s
      else match s.checkSource t (lget {} (s.tileMould t).descs desc).cluster (s.descLocal t desc add) with
        | .waits => s
        | .stale x => s.staleRiser t l x
        | .ok => (s.startRun t e desc 0 0 add h.sig).updLtile t fun x => x.setRun l (x.run l).advance
    | _, _ => s)

/-- KICKED_RUN (R280, R298): the engine's oldest waiting kick. -/
def execKickedRun (a : EngineAt) (s : State) : Out :=
  let t := a.tile.val
  let e := a.engine.val
  let s := s.updCluster t (e / 2) fun c => c.strike a.upsets
  let g := (s.ltile t).engine e
  .next (match g.kicks with
    | [] => s
    | k :: rest =>
      if 8 ≤ g.runs.length || s.crown.openStep.isNone then s
      else
        let d := lget {} (s.tileMould t).descs k.desc
        let s := s.updLtile t fun x => x.setEngine e { x.engine e with kicks := rest }
        s.startRun t e k.desc k.offset k.count 0 (if d.ksigEn && !k.pro then some (0, d.ksigTok) else none))

/-- A hub source's elements, once all of them have reached the endpoint (R279). -/
def State.takeHub (s : State) (t e : Nat) (r : DescRun) : State :=
  match s.takeElems (t / 6) r.src r.elems with
  | none => s
  | some (els, s) =>
    let f := (Fmt.ofCode r.fmt).getD .f32
    let b := ofElems f r.mx r.rowElems els
    let cut := r.chunks.foldl (fun (acc : List (List Byte) × List Byte × List Byte) c =>
      if c.scale then (acc.1 ++ [acc.2.2.take c.len], acc.2.1, acc.2.2.drop c.len)
      else (acc.1 ++ [acc.2.1.take c.len], acc.2.1.drop c.len, acc.2.2)) ([], b.1, b.2)
    let got := cut.1.zipIdx.map fun x => (x.2, x.1)
    (s.setDescRun t e { r with got := got, taken := true, tag := lastTag els }).pump t e r.id (r.chunks.length + 1)

/-- Set a riser's tag after a fill (R297). -/
def Tile.filled (x : Tile) (n : Nat) (tag : Tag) : Tile :=
  { x with risers := tput .empty x.risers n tag, prologue := x.prologue.filter (· != n) }

/-- DESC_RUN_COMPLETE (R151, R280, R297): every piece is delivered and every write accepted. A run fed by a hub endpoint takes
its elements first. -/
def execDescRunComplete (a : EngineAt) (index : Nat) (s : State) : Out :=
  let t := a.tile.val
  let e := a.engine.val
  let s := s.updCluster t (e / 2) fun c => c.strike a.upsets
  .next (match ((s.ltile t).engine e).runs[index]? with
    | none => s
    | some r0 =>
      let s := if r0.srcKind = 2 && !r0.taken then s.takeHub t e r0 else s.pump t e r0.id (r0.chunks.length + 1)
      match ((s.ltile t).engine e).run? r0.id with
      | none => s
      | some r =>
        if r.next < r.chunks.length || r.writes ≠ 0 then s
        else
          let s := s.updLtile t fun x => x.setEngine e ((x.engine e).dropRun r.id)
          let s := if r.fill = 0xFF then s else s.updLtile t fun x => x.filled r.fill (r.tag.getD .empty)
          (s.traceStream (t / 6) (tileAgent t (10 + e)) r.data).tileItemSignal t r.sig)

end Sys2Proof.Machine
end

