-- ==== Sys2Proof/Machine/Sorter.lean ====
section
/-! DEFINITION. The request sorter of a hub (R217 to R224): acceptance by class, bank queues, service, merging; tagged ranges
covered by writes (R297); the STATIC rewrite (R244); fettling (R252 to R255); scatter-add epochs and fences (R225 to R229);
PLATE_CLEAR (R231). -/
namespace Sys2Proof.Machine

/-! ### Acceptance -/

/-- The queues in the order of R219: MOULD; ENGINE; PORT; CHANNEL, tile channels first; STREAM; PATROL. -/
def queueOrder : List Nat := [ingressMould, 14, 15, 16, 17, 0, 1, 2, 3, 4, 5, 6, 7, 8, 9, 10, 11, 12, 18, 19, 20]

/-- Priority class of a queue (R219). -/
def queueClass (q : Nat) : Nat :=
  if q = ingressMould then 0
  else if q = queueReduce || q = queueUpdate then 1
  else if q = queuePort 0 || q = queuePort 1 then 2
  else if q < 13 then 3
  else if q = queueStream then 4
  else 5

/-- Head request of an ingress queue. -/
def Hub.headReq (x : Hub) (q : Nat) : Option Req := (tget [] x.ingress q).head?

/-- Bank queue and row of a request. -/
def Req.place (r : Req) : Nat × Nat :=
  if (addrHome r.addr).isNone then (0, 0) else bankOf r.addr

/-- Requests in a bank queue. -/
def Hub.depth (x : Hub) (bank : Nat) : Nat := (x.slots.filter fun z => z.bank == bank).length

/-- Whether a request is a scatter-add, which enters the add buffer and takes no slot (R225). -/
def Req.isAdd (r : Req) : Bool := match r.kind with | .add _ _ _ _ _ => true | _ => false

/-- Whether a head can be accepted (R218): a slot is free and its bank queue holds fewer than 64. -/
def Hub.canAccept (x : Hub) (r : Req) : Bool :=
  r.isAdd || (decide (x.slots.length < 4096) && decide (x.depth r.place.1 < 64))

/-- The queue whose head is accepted next (R219): one passed over by 64 lower-class acceptances, else the first in order. -/
def Hub.nextQueue (x : Hub) : Option Nat :=
  let ok := fun q => match x.headReq q with | none => false | some r => x.canAccept r
  match queueOrder.find? fun q => ok q && decide (64 ≤ tget 0 x.passed q) with
  | some q => some q
  | none => queueOrder.find? ok

/-- Count an acceptance of a class against the waiting heads of higher class numbers (R219). -/
def Hub.countPassed (x : Hub) (q : Nat) : Hub :=
  let waiting := queueOrder.filter fun p => (x.headReq p).isSome && decide (queueClass q < queueClass p)
  { x with passed := terase (waiting.foldl (fun t p => tset t p (tget 0 t p + 1)) x.passed) q }

/-- Units of 256 KiB that the spill log holds (R213, R228). -/
def State.spillCap (s : State) (h : Nat) : Nat := (lget {} s.loaded.placement.hubs h).spill.2 / 0x40000

/-- Runs in the log (R236). -/
def Hub.spillRuns (x : Hub) : Nat := x.spill.length

/-- Every add in the log. -/
def Hub.spilled (x : Hub) : List Add := x.spill.flatMap SpillRun.adds

/-- The lowest place of the log where a run of n units fits beside the runs in it. -/
def State.spillPlace (s : State) (h n : Nat) : Option Nat :=
  let l := (s.hub h).spill
  let free := fun (b : Nat) => decide (b + n ≤ s.spillCap h) && l.all fun r => decide (b + n ≤ r.start ∨ r.start + r.size ≤ b)
  ((0 :: l.map fun r => r.start + r.size).filter free).foldl (fun m b => match m with | none => some b | some c => some (min b c)) none

/-- Order of adds (R157, R225): address, epoch, thread, sequence. -/
def Add.lt (a b : Add) : Bool :=
  if a.addr ≠ b.addr then decide (a.addr < b.addr)
  else if a.epoch ≠ b.epoch then decide (a.epoch < b.epoch)
  else if a.thread ≠ b.thread then decide (a.thread < b.thread)
  else decide (a.seq < b.seq)

/-- Insert an add in order. -/
def insertAdd (a : Add) : List Add → List Add
  | [] => [a]
  | b :: t => if a.lt b then a :: b :: t else b :: insertAdd a t

/-- A SORTER fault (R226, R228, R572). -/
def State.sorterFault (s : State) (h cause epoch : Nat) : State :=
  s.report (hubDie h) 0x0A [(64, s.stepNo), (3, h), (1, cause), (16, epoch)]

/-- Write adds, in order, to the spill log as one run (R228); none when the log has no place for it. -/
def State.writeRun (s : State) (h n : Nat) (l : List Add) : Option State :=
  match s.spillPlace h n with
  | none => none
  | some b =>
    let base := (lget {} s.loaded.placement.hubs h).spill.1 + 0x40000 * b
    let s := (s.writeMem base ((List.range (0x40000 * n)).map fun i => some (Config.spillByte b i))).1
    some (s.updHub h fun x => { x with spill := x.spill ++ [{ start := b, size := n, adds := l }] })

/-- Write the full add buffer to the spill log and empty it (R228). -/
def State.spillAdds (s : State) (h : Nat) : Option State :=
  (s.writeRun h 1 (s.hub h).adds).map fun s => s.updHub h fun x => { x with adds := [] }

/-- Take a scatter-add into the add buffer (R225, R226, R228). Its entries of three SRAM words stand in order: those from its place on
are read and written anew. -/
def State.acceptAdd (s : State) (h : Nat) (a : Add) : State :=
  if a.epoch < (s.hub h).fences then s.sorterFault h 0 a.epoch
  else
    let full := decide (16384 ≤ (s.hub h).adds.length)
    let l := (s.hub h).adds
    let at' := if full then 0 else (l.takeWhile fun b => !a.lt b).length
    let r := s.readSram h 1 fun w => decide (3 * at' ≤ w ∧ w < 3 * l.length)
    if r.2 then r.1
    else match (if full then r.1.spillAdds h else some r.1) with
    | none => r.1.sorterFault h 1 a.epoch
    | some s => s.updHub h fun x =>
        let y : Hub := { x with adds := insertAdd a x.adds }
        y.writeSram 1 fun w => decide (3 * at' ≤ w ∧ w < 3 * x.adds.length + 3)

/-- Put a response on its way. -/
def State.respond (s : State) (h : Nat) (r : Resp) : State := s.updHub h fun x => { x with resps := x.resps ++ [r] }

/-- Whether an accepted request answers at once with its acceptance: writes and adds (R144, R151). -/
def Req.answersAccept (r : Req) : Bool :=
  match r.kind with
  | .write _ => decide (r.agent ≠ .own)
  | .add _ _ _ _ _ => true
  | .read _ => false
  | .rewrite => false
  | .fettle => false

/-- Bytes a request covers: address and length. -/
def Req.span (r : Req) : Nat × Nat :=
  match r.kind with
  | .read n => (r.addr, n)
  | .write b => (r.addr, b.length)
  | .add _ _ _ _ _ => (r.addr, 4)
  | .rewrite => (r.addr, 32)
  | .fettle => (r.addr, 32)

/-- First sector and sector count of a request. -/
def Req.sectors (r : Req) : Nat × Nat :=
  let p := r.span
  (p.1 / 32, (p.1 + p.2 - 1) / 32 - p.1 / 32 + 1)

/-- The sectors of a request, by number. -/
def Req.sectorList (r : Req) : List Nat := (List.range r.sectors.2).map fun i => r.sectors.1 + i

/-- A request in its slot. -/
def Req.slot (r : Req) : Slot := { req := r, bank := r.place.1, row := r.place.2, left := r.sectorList }

/-- Take the head of an ingress queue: it gets a slot of its bank queue, or enters the add buffer. -/
def State.acceptHead (s : State) (h q : Nat) : State :=
  match tget [] (s.hub h).ingress q with
  | [] => s
  | r :: rest =>
    let s := s.updHub h fun x =>
      let x := x.countPassed q
      { x with ingress := tput [] x.ingress q rest }
    let s := if r.answersAccept then s.respond h { req := r, accepted := true } else s
    match r.kind with
    | .add int v e th sq => s.acceptAdd h { addr := r.addr, epoch := e, thread := th, seq := sq, int := int, v := v }
    | _ => s.updHub h fun x => { x with slots := x.slots ++ [r.slot] }

/-- REQUEST_ACCEPT (R218, R219): the head of the next queue. -/
def execRequestAccept (hb : Fin 8) (s : State) : Out :=
  .next (match (s.hub hb.val).nextQueue with
    | none => s
    | some q => s.acceptHead hb.val q)

/-! ### Service -/

/-- Whether a request changes what it covers. -/
def Req.changes (r : Req) : Bool := match r.kind with | .write _ => true | .rewrite => true | _ => false

/-- Whether a slot must be served before one accepted later (R222): both wait for one sector and one of them writes it. -/
def Slot.before (a b : Slot) : Bool := (a.req.changes || b.req.changes) && a.left.any fun x => decide (x ∈ b.left)

/-- Positions of the slots of a bank queue that nothing accepted earlier holds back. -/
def Hub.ready (x : Hub) (bank : Nat) : List Nat :=
  (x.slots.zipIdx.filter fun z => z.1.bank == bank && (x.slots.take z.2).all fun y => !y.before z.1).map Prod.snd

/-- The slot served next (R220): one passed 16 times, else the open row first, then by row number; acceptance order within a
row. -/
def Hub.pick (x : Hub) (bank : Nat) : Option Nat :=
  let c := x.ready bank
  let slot := fun i => lget { req := { kind := .rewrite }, bank := 0, row := 0 } x.slots i
  match c.find? fun i => decide (16 ≤ (slot i).passes) with
  | some i => some i
  | none =>
    match (if thas x.openRow bank then c.find? fun i => (slot i).row == tget 0 x.openRow bank else none) with
    | some i => some i
    | none => c.foldl (fun b i => match b with
        | none => some i
        | some j => if (slot i).row < (slot j).row then some i else some j) none

/-- Masks of two writes of one sector laid over each other: the later wins (R221). -/
def overMask : List (Option Byte) → List (Option Byte) → List (Option Byte)
  | a, [] => a
  | [], b => b
  | _ :: t, some v :: u => some v :: overMask t u
  | a :: t, none :: u => a :: overMask t u

/-- What a write request writes of a sector. -/
def Req.maskOf (r : Req) (sector : Nat) : List (Option Byte) :=
  match r.kind with
  | .write b => sliceMask r.addr b (32 * sector)
  | _ => []

/-- Ranges of a hub's tagged table with their tag numbers: 2 x entry + bank, start, bytes (R296). -/
def State.tagRanges (s : State) (h : Nat) : List (Nat × Nat × Nat) :=
  (s.taggedRanges h).zipIdx.flatMap fun r => [(2 * r.2, r.1.1, r.1.2), (2 * r.2 + 1, r.1.1 + s.bankSpan, r.1.2)]

/-- A write of generation g to tagged ranges (R297): when every byte of a range has been written it becomes PROV(g), or
FINAL(g) in a rebuild (R461). -/
def State.cover (s : State) (h a len g : Nat) : State :=
  (s.tagRanges h).foldl (fun s r =>
    let lo := max a r.2.1
    let hi := min (a + len) (r.2.1 + r.2.2)
    if hi ≤ lo then s
    else s.updHub h fun x =>
      let c := addRange (tget [] x.covered r.1) (lo, hi)
      let full := coversRange c r.2.1 (r.2.1 + r.2.2)
      let tag := if s.crown.openStep.isSome then Tag.prov g else .final g
      { x with covered := tset x.covered r.1 c, tags := if full then tput .empty x.tags r.1 tag else x.tags }) s

/-- Coverage a served write leaves. -/
def State.coverReq (s : State) (h : Nat) (r : Req) : State :=
  match r.gen with
  | none => s
  | some g => s.cover h r.addr r.span.2 g

/-- Whether a request reads for an agent or for fettling. -/
def Req.reads (r : Req) : Bool := match r.kind with | .read _ => true | .fettle => true | _ => false

/-- Positions of the slots that one device read of a sector serves (R221): those that read it, up to the first that changes it. -/
def Hub.readers (x : Hub) (sector : Nat) : List Nat :=
  let upto := x.slots.zipIdx.takeWhile fun z => !(z.1.req.changes && decide (sector ∈ z.1.left))
  (upto.filter fun z => z.1.req.reads && decide (sector ∈ z.1.left)).map Prod.snd

/-- Positions of the slots that one device write of a sector serves (R221): those that write it, up to the first that reads or
rewrites it. -/
def Hub.writers (x : Hub) (sector : Nat) : List Nat :=
  let writes := fun (r : Req) => match r.kind with | .write _ => true | _ => false
  let upto := x.slots.zipIdx.takeWhile fun z => writes z.1.req || decide (sector ∉ z.1.left)
  (upto.filter fun z => decide (sector ∈ z.1.left)).map Prod.snd

/-- Change the slots at some positions. -/
def Hub.updSlots (x : Hub) (l : List Nat) (f : Slot → Slot) : Hub :=
  { x with slots := x.slots.zipIdx.map fun z => if z.2 ∈ l then f z.1 else z.1 }

/-- A device read of a sector for every slot that it serves: one decode, counted once and listed once (R221, R245, R250, R255). In an
invalid plate nothing is decoded (R232). -/
def State.readFor (s : State) (h sector : Nat) (patrol : Bool) : State :=
  let l := (s.hub h).readers sector
  let d := s.readMem (32 * sector) 32
  let s := s.countDecodes (32 * sector) d.2 (if patrol then 0 else 2)
  let fettle := l.any fun i => (((s.hub h).slots[i]?).map fun z => decide (z.req.kind = .fettle)).getD false
  let s := if fettle then d.2.twoSym.foldl (fun s x => s.listSector x 1) s else s
  s.updHub h fun x => x.updSlots l fun z => { z with left := z.left.erase sector, got := tset z.got sector d.1 }

/-- A device write of a sector for every slot that it serves, by byte mask in acceptance order (R221, R223): a partial sector that is
uncorrectable is not written and is the sorter's fault. -/
def State.writeFor (s : State) (h sector : Nat) : State :=
  let l := (s.hub h).writers sector
  let reqs := l.filterMap fun i => ((s.hub h).slots[i]?).map Slot.req
  let w := s.writeMem (32 * sector) (reqs.foldl (fun m r => overMask m (r.maskOf sector)) (List.replicate 32 none))
  let s := w.1.countDecodes (32 * sector) w.2 2
  let s := w.2.bad.foldl (fun s x => s.hubRecord h 0x0 x) s
  s.updHub h fun x => x.updSlots l fun z => { z with left := z.left.erase sector }

/-- The answer of a read whose sectors have all come (R222): none where one was uncorrectable. -/
def Slot.answer (z : Slot) : Resp :=
  let d := z.got.map fun g => g.2
  { req := z.req
    data := if d.all Option.isSome then some (((d.flatMap fun b => b.getD []).drop (z.req.addr % 32)).take z.req.span.2) else none
    bads := (z.got.filter fun g => g.2.isNone).map fun g => 32 * g.1 }

/-- Release the slots whose sectors have all been served: a read is answered, a write leaves its coverage (R297). -/
def State.releaseSlots (s : State) (h : Nat) : State :=
  let done := (s.hub h).slots.filter fun z => z.left = []
  let s := s.updHub h fun x => { x with slots := x.slots.filter fun z => z.left ≠ [] }
  done.foldl (fun s z => match z.req.kind with
    | .read _ => s.respond h z.answer
    | .write _ => s.coverReq h z.req
    | _ => s) s

/-- The STATIC rewrite of one sector (R244): a sector of an invalid plate is skipped. -/
def State.serveRewrite (s : State) (h a : Nat) : State :=
  if !s.plateValid a then s
  else
    let d := s.readMem a 32
    let s := s.countDecodes a d.2 2
    match d.1 with
    | none => s.hubRecord h 0x7 a
    | some b => s.writeSector a b

/-- Number of the bank queue a command names (R218). -/
def bankQueue : BankAt → Nat
  | .hbm c p b => (c.val * 2 + p.val) * 64 + b.val
  | .slow c u b => 12288 + (c.val * 4 + u.val) * 16 + b.val

/-- Count that a served slot has passed those of its queue accepted before it and still waiting (R220). -/
def Hub.countPasses (x : Hub) (i : Nat) (bank row : Nat) : Hub :=
  { x with
    slots := x.slots.zipIdx.map fun y => if y.1.bank == bank && decide (y.2 < i) then { y.1 with passes := y.1.passes + 1 } else y.1
    openRow := tset x.openRow bank row }

/-- Serve the slot at a position, and with it whatever its device accesses serve (R220 to R223). A request that meets an
uncorrectable word of the valid bitmap leaves its slot with nothing done. -/
def State.serveSlot (s : State) (h i : Nat) : State :=
  match (s.hub h).slots[i]? with
  | none => s
  | some z =>
    let s := s.updHub h fun x => x.countPasses i z.bank z.row
    let r := s.readBitmap z.req.addr z.req.span.2
    if r.2 then r.1.updHub h fun x => { x with slots := ldel x.slots i }
    else match z.req.kind with
    | .read _ => (z.left.foldl (fun s x => s.readFor h x false) r.1).releaseSlots h
    | .fettle => (z.left.foldl (fun s x => s.readFor h x true) r.1).releaseSlots h
    | .write _ => (z.left.foldl (fun s x => s.writeFor h x) r.1).releaseSlots h
    | .rewrite => (r.1.serveRewrite h z.req.addr).updHub h fun x => { x with slots := ldel x.slots i }
    | .add _ _ _ _ _ => r.1

/-- Errors strike a hub's stores (R237). -/
def State.strikeHub (s : State) (h : Nat) (e : Hits) : State :=
  (s.hitSectors e.sectors).updHub h fun x => { x with sramErr := toggleBits x.sramErr (e.sram.map fun w => (sramKey w.1.val w.2.1, w.2.2)) }

/-- Serve the next slot of a bank queue, where one is ready. -/
def State.serveBank (s : State) (h bank : Nat) : Option State := ((s.hub h).pick bank).map fun i => s.serveSlot h i

/-- SORTER_SERVE (R220 to R224). -/
def execSorterServe (hb : Fin 8) (b : BankAt) (hits : Hits) (s : State) : Out :=
  let s := s.strikeHub hb.val hits
  .next ((s.serveBank hb.val (bankQueue b)).getD s)

/-! ### Accesses of a hub's own engines, ports and streams

Each is a request of one sector at the sorter of the hub that owns the address, in the ingress queue of its agent (R217). The command
that makes it waits for it: the sorter accepts and serves by its own rules until the request has been served. -/

/-- Serve the oldest accepted request's queue (R222: nothing holds the oldest one back). -/
def State.serveOldest (s : State) (h : Nat) : State :=
  match (s.hub h).slots with
  | [] => s
  | z :: _ => (s.serveBank h z.bank).getD s

/-- Whether an agent's own request still waits at a hub: in an ingress queue, and in a slot. -/
def Hub.ownWaits (x : Hub) (q : Nat) : Bool := (tget [] x.ingress q).any fun r => r.agent = .own
def Hub.ownInSlot (x : Hub) : Bool := x.slots.any fun z => z.req.agent = .own

/-- Let the sorter work until the own request has been served (fuel: acceptances and services). -/
def State.sortOwn (s : State) (h q bank : Nat) : Nat → State
  | 0 => s
  | k + 1 =>
    let x := s.hub h
    let serve := (s.serveBank h bank).getD (s.serveOldest h)
    if x.ownWaits q then
      match x.nextQueue with
      | some p => (s.acceptHead h p).sortOwn h q bank k
      | none => serve.sortOwn h q bank k
    else if x.ownInSlot then serve.sortOwn h q bank k
    else s

/-- Put an agent's own request into its queue at the owning hub and wait for it: the answer of a read. -/
def State.ownAccess (s : State) (src queue : Nat) (r : Req) : Option Resp × State :=
  match addrHome r.addr with
  | none => (none, s)
  | some (h, _, _) =>
    let q := s.ingressFrom src h queue
    let s := s.pushReq src queue r
    let x := s.hub h
    let work := (x.ingress.map fun e => e.2.length).sum
    let s := s.sortOwn h q r.place.1 (2 * work + x.slots.length + 1)
    match takeFirst (fun y => decide (y.req.agent = .own)) (s.hub h).resps with
    | none => (none, s)
    | some (y, l) => (some y, s.updHub h fun x => { x with resps := l })

/-- Ingress queue of a hub agent by its code (R217, R219, R247): engines, the port of a far-link replay or a PORT_RECV, else streams. -/
def agentQueue (agent port : Nat) : Nat :=
  if agent = 0x1 then queueReduce else if agent = 0x2 then queueUpdate else if agent = 0x5 then queuePort port else queueStream

/-- The bytes a hub agent reads (R222, R242, R245): an uncorrectable sector is listed and is the agent's fault. Outside memory it reads
zeros. -/
def State.agentRead (s : State) (h agent a len : Nat) (port : Nat := 0) : Option (List Byte) × State :=
  if (addrHome a).isNone then (some (List.replicate len 0), s)
  else
    (sectorsOf a len).foldl (fun (acc : Option (List Byte) × State) sec =>
      let lo := max a sec
      let n := min (a + len) (sec + 32) - lo
      let r := acc.2.ownAccess h (agentQueue agent port) { agent := .own, kind := .read n, addr := lo }
      match r.1 with
      | none => (none, r.2)
      | some y =>
        let s := y.bads.foldl (fun s x => s.hubRecord h agent x) r.2
        (match acc.1, y.data with | some b, some d => some (b ++ d) | _, _ => none, s)) (some [], s)

/-- The bytes a hub agent writes through an ingress queue (R223, R233, R243). -/
def State.queueWrite (s : State) (h queue a : Nat) (b : List Byte) : State :=
  (sectorsOf a b.length).foldl (fun s sec =>
    let lo := max a sec
    let n := min (a + b.length) (sec + 32) - lo
    (s.ownAccess h queue { agent := .own, kind := .write (((b.drop (lo - a)).take n).map some), addr := lo }).2) s

/-- The bytes an update engine, a hub stream or a restore writes. -/
def State.agentWrite (s : State) (h a : Nat) (b : List Byte) (queue : Nat := queueStream) : State := s.queueWrite h queue a b

/-- One piece of a range that an engine writes in rising order up to `hi`: where a piece opens a sector that the range covers
whole, the sector's write replaces every symbol (R243). -/
def State.agentStream (s : State) (h a hi : Nat) (b : List Byte) : State :=
  s.agentWrite h a (if a % 32 = 0 && decide (a + 32 ≤ hi) then b ++ List.replicate (32 - b.length) 0 else b) queueUpdate

/-- Serve every accepted request that waits for a sector of a byte range (R222, R224), before the sorter's own work there. Fuel:
slots. -/
def State.settleRange (s : State) (h a len : Nat) : Nat → State
  | 0 => s
  | k + 1 =>
    if (s.hub h).slots.any fun z => z.left.any fun x => decide (32 * x < a + len ∧ a < 32 * x + 32) then
      (s.serveOldest h).settleRange h a len k
    else s

/-- Before the sorter's own work at a byte range of a hub. -/
def State.settle (s : State) (h a len : Nat) : State := s.settleRange h a len (s.hub h).slots.length

/-! ### Fettling -/

/-- Ranges of a hub that fettling covers (R252, R483): KIND FETTLE or both. -/
def State.fettleRanges (s : State) (h : Nat) : List (Nat × Nat) :=
  ((lget {} s.loaded.placement.hubs h).ranges.filter fun r => decide (1 ≤ r.kind)).map fun r => (r.base, r.size)

/-- Addresses of a hub's valid plates. -/
def State.validPlates (s : State) (h : Nat) : List Nat :=
  ((s.hub h).validHbm.map fun e => sliceAddr h false (4096 * e.1)) ++
  ((s.hub h).validSlow.map fun e => sliceAddr h true (4096 * e.1))

/-- Valid plates that fettling covers: in a named range and not in the spill log (R252). -/
def State.fettlePlates (s : State) (h : Nat) : List Nat :=
  let log := (lget {} s.loaded.placement.hubs h).spill
  (s.validPlates h).filter fun p =>
    ((s.fettleRanges h).any fun r => overlaps p 4096 r.1 r.2) && !overlaps p 4096 log.1 log.2

/-- The first sector at or after an address that fettling covers. -/
def State.fettleNext (s : State) (h from' : Nat) : Option Nat :=
  (s.fettlePlates h).foldl (fun b p =>
    let c := if from' ≤ p then some p else if from' < p + 4096 then some from' else none
    match b, c with
    | none, x => x
    | x, none => x
    | some x, some y => some (min x y)) none

/-- FETTLE_READ (R252 to R254): the next read of the pass; past the last sector the pass is complete and the next begins. -/
def execFettleRead (hb : Fin 8) (hits : Hits) (s : State) : Out :=
  let h := hb.val
  let s := s.strikeHub h hits
  let x := s.hub h
  let issue := fun (s : State) (a : Nat) =>
    (s.pushReq h queueFettle { kind := .fettle, addr := a }).updHub h fun x => { x with fetCursor := a + 32 }
  .next (if !x.fetEnable || s.power.mitten || s.power.quenched || x.hbmStacks = 0 then s
    else match s.fettleNext h x.fetCursor with
      | some a => issue s a
      | none => match s.fettleNext h 0 with
        | none => s
        | some a => issue (s.updHub h fun x => { x with fetPasses := x.fetPasses + 1 }) a)

/-! ### Fences -/

/-- Launch epochs that a launch list may still run, from a position with its repeats (fuel: entries to walk). -/
def epochsLeft (chunks : Nat → Nat) (l : List (Entry LaunchItem)) : Nat → ListRun → List Nat
  | 0, _ => []
  | k + 1, r =>
    match l[r.pos]? with
    | none => []
    | some (.item h it) => h.epoch (r.count r.pos) it.epoch :: epochsLeft chunks l k r.advance
    | some (.rbegin _ c fm mb) => epochsLeft chunks l k (r.begin l (if fm then chunks mb else c))
    | some (.rend _) => epochsLeft chunks l k r.finishRepeat

/-- Epoch of the first FENCE item of a fence list from a position on, with its repeats (fuel: entries to walk). -/
def fenceAhead (chunks : Nat → Nat) (l : List (Entry HubItem)) : Nat → ListRun → Option Nat
  | 0, _ => none
  | k + 1, r =>
    match l[r.pos]? with
    | none => none
    | some (.item _ it) => match it.body with
      | .fence e _ _ => some e
      | _ => fenceAhead chunks l k r.advance
    | some (.rbegin _ c fm mb) => fenceAhead chunks l k (r.begin l (if fm then chunks mb else c))
    | some (.rend _) => fenceAhead chunks l k r.finishRepeat

/-- Epoch of a hub's next fence in the step (R236); with none left, or no step open, 0. -/
def State.nextFence (s : State) (h : Nat) : Nat :=
  if s.crown.openStep.isNone then 0
  else (fenceAhead s.chunksOf (s.hubList h 0) 4294967295 (s.hubRun h 0)).getD 0

/-- Whether a tile has sent its end-of-epoch marker (R226): every launch of the epoch on it has completed. -/
def State.markerSent (s : State) (t e : Nat) : Bool :=
  (List.range 4).all fun k =>
    ((s.cluster t k).launches.all fun l => l.epoch != e) &&
    decide (e ∉ epochsLeft s.chunksOf (lget [] (s.tileMould t).launches k) 4294967295 ((s.ltile t).run (6 + k)))

/-- The sum of a scatter-add (R158). -/
def addValue (a : Add) (old : W32) : W32 := if a.int then old + a.v else rnAdd old a.v

/-- Apply the adds of one address in key order (R227): one read, after every request to it accepted before (R222), and one write; an
uncorrectable target is a fault. -/
def State.applyAdds (s : State) (h addr : Nat) (l : List Add) : State :=
  let r := (s.settle h addr 4).readBitmap addr 4
  if r.2 then r.1
  else
    let d := r.1.readMem addr 4
    let s := r.1.countDecodes addr d.2 2
    match d.1 with
    | none => s.hubRecord h 0x4 (sectorOf addr)
    | some b =>
      let v := l.foldl (fun v a => addValue a v) (BitVec.ofNat 32 (leNat b))
      (s.writeMem addr ((leBytes 4 v.toNat).map some)).1

/-- Apply sorted adds address by address (fuel: adds). -/
def State.applyAll (s : State) (h : Nat) : Nat → List Add → State
  | 0, _ => s
  | _, [] => s
  | k + 1, a :: t =>
    let same := (a :: t).takeWhile fun x => x.addr == a.addr
    (s.applyAdds h a.addr same).applyAll h k ((a :: t).drop same.length)

/-- Read runs of the spill log for a merge (R228, R245, R250): decodes count, an uncorrectable sector is listed and is a fault. True
where one was met. -/
def State.readRuns (s : State) (h : Nat) (l : List SpillRun) : State × Bool :=
  l.foldl (fun (acc : State × Bool) r =>
    let a := (lget {} s.loaded.placement.hubs h).spill.1 + 0x40000 * r.start
    let d := (acc.1.readMem a (0x40000 * r.size)).2
    let s := acc.1.countDecodes a d 2
    (d.bad.foldl (fun s x => s.hubRecord h 0x6 x) s, acc.2 || d.bad ≠ [])) (s, false)

/-- What a merge of the log leaves: the state, or the fault it met. -/
inductive Merged where
  | ok (s : State)
  | fault (s : State)

/-- Merge groups of 64 runs into longer runs in the log until the runs and the buffer are at most 64 inputs (R228). Fuel: runs. -/
def State.mergeRuns (s : State) (h epoch : Nat) : Nat → Merged
  | 0 => .ok s
  | k + 1 =>
    let x := s.hub h
    if x.spill.length + b2n (x.adds ≠ []) ≤ 64 then .ok s
    else
      let g := x.spill.take 64
      let r := s.readRuns h g
      if r.2 then .fault r.1
      else match r.1.writeRun h (g.map SpillRun.size).sum ((g.flatMap SpillRun.adds).foldl (fun l a => insertAdd a l) []) with
        | none => .fault (r.1.sorterFault h 1 epoch)
        | some s => (s.updHub h fun x => { x with spill := x.spill.drop 64 }).mergeRuns h epoch k

/-- What a fence of epoch e applies once the listed tiles' markers are there and the log is merged (R226 to R228). -/
def State.closeEpoch (s : State) (h e : Nat) : State :=
  let mine := fun (l : List Add) => l.filter fun a => a.epoch == e
  let rest := fun (l : List Add) => l.filter fun a => a.epoch != e
  let x := s.hub h
  let all := (mine x.adds ++ x.spill.flatMap fun r => mine r.adds).foldl (fun l a => insertAdd a l) []
  let s := s.updHub h fun x =>
    { x with
      adds := rest x.adds
      spill := (x.spill.map fun r => { r with adds := rest r.adds }).filter fun r => r.adds ≠ []
      fences := e + 1 }
  s.applyAll h all.length all

/-- FENCE (R226 to R228, R286): after the listed markers, the epoch's adds apply in key order and the tokens are signalled. A
merge pass that finds the spill log full, or meets an uncorrectable sector in it, is a fault, and so is an uncorrectable word of the
add buffer. -/
def execFence (hb : Fin 8) (hits : Hits) (s : State) : Out :=
  let h := hb.val
  let s := s.strikeHub h hits
  .next (match s.hubMarker h 0 with
    | some (.item hd { body := .fence e tiles tok, .. }) =>
      let listed := (List.range 48).filter fun t => bit tiles t
      if s.crown.rebuild || !(listed.all fun t => s.markerSent t e) then s
      else
        let stop := fun (s : State) => s.updHub h fun x => x.stopList 0
        let r := s.readSram h 1 fun w => decide (w < 3 * (s.hub h).adds.length)
        if r.2 then stop r.1
        else match r.1.mergeRuns h e (r.1.hub h).spill.length with
          | .fault s => stop s
          | .ok s =>
            let r := s.readRuns h (s.hub h).spill
            if r.2 then stop r.1
            else
              let s := (r.1.closeEpoch h e).updHub h fun x => x.writeSram 1 fun w => decide (w < 3 * (r.1.hub h).adds.length)
              let s := listed.foldl (fun s t => s.sendSignal (48 + h) t tok 1) s
              s.hubItemDone h 0 { pos := (s.hubRun h 0).pos, i := (s.hubRun h 0).count (s.hubRun h 0).pos } hd
    | _ => s)

/-- Clear a range of plates (R231) after the requests to it that were accepted before (R222). A bitmap word that the range covers in
part is read first; an uncorrectable one is a fault and nothing is cleared. -/
def State.clearRange (s : State) (h : Nat) (slow : Bool) (plate count : Nat) : State × Bool :=
  let s := s.settle h (sliceAddr h slow (plate * 4096)) (count * 4096)
  let ends := [bitmapWord slow plate, bitmapWord slow (plate + count - 1)].filter fun w =>
    decide (count ≠ 0) && !(decide (64 * (w - (if slow then 786432 else 0)) ≥ plate ∧ 64 * (w - (if slow then 786432 else 0)) + 64 ≤ plate + count))
  let r := s.readSram h 0 fun w => decide (w ∈ ends)
  if r.2 then r else (r.1.clearPlates h slow plate count, false)

/-- PLATE_CLEAR (R231, R286). -/
def execPlateClear (hb : Fin 8) (s : State) : Out :=
  let h := hb.val
  .next (match (s.hubWindow h 5).find? fun w => match w.item.body with | .plateClear _ _ _ => true | _ => false with
    | some { inst := n, head := hd, item := { body := .plateClear slow plate count, .. } } =>
      let r := s.clearRange h slow plate count
      if r.2 then r.1.updHub h fun x => x.stopList 5 else r.1.hubItemDone h 5 n hd
    | _ => s)

end Sys2Proof.Machine
end

