-- ==== Sys2Proof/Machine/Fabric.lean ====
section
/-! DEFINITION. The fabric (R384 to R408): flits and their CRC, link-level sending with windows and the far-link buffer,
streams and their headers, priority messages and routes, partner checkpoint slots (R215, R456, R457). -/
namespace Sys2Proof.Machine

/-! ### Flits -/

/-- Header words of a flit, the CRC field zero (R384). -/
def flitWords (f : Flit) : Nat × Nat :=
  (f.type.toNat * 2 ^ 60 + f.seq.toNat * 2 ^ 36 + b2n f.ackc * 2 ^ 35 + f.ack.toNat * 2 ^ 11,
    f.stream.toNat * 2 ^ 20 + (f.body.length - 1) * 2 ^ 8)

/-- The CRC a flit must carry (R386): CRC-32C of the header with a zero CRC field and of the 4,096-byte body. -/
def flitCrc (f : Flit) : W32 :=
  let w := flitWords f
  crc32c (leBytes 8 w.1 ++ leBytes 8 w.2 ++ f.body ++ List.replicate (4096 - f.body.length) 0)

/-- Whether RS(544,514) corrects every codeword that a flit lies in (R380, R386): 30 check symbols correct 15 (DEDUCED). -/
def fecOk (f : Flit) : Bool := f.fec.all fun c => decide (c.1 ≤ 15)

/-- Codewords that end in a flit: those corrected and those not (R473). -/
def fecFixed (f : Flit) : Nat := (f.fec.filter fun c => c.2 && decide (0 < c.1 ∧ c.1 ≤ 15)).length
def fecLost (f : Flit) : Nat := (f.fec.filter fun c => c.2 && decide (15 < c.1)).length

/-- What a receiver makes of a flit (R385, R386). -/
inductive FlitCheck where
  | good | bad | stomped | reserved
  deriving DecidableEq, Repr

/-- R385, R386. -/
def flitCheck (f : Flit) : FlitCheck :=
  if !fecOk f then .bad
  else if f.crc = (flitCrc f ^^^ 0xFFFFFFFF) then .stomped
  else if f.crc ≠ flitCrc f then .bad
  else if 4 ≤ f.type.toNat then .reserved
  else .good

/-- Whether a sequence number lies below another, both within half the 24-bit range (R389). -/
def seqLt (a b : BitVec 24) : Bool := a ≠ b && decide ((b - a).toNat < 2 ^ 23)

/-- Fields of the acknowledgement that a port's next flit carries, and the port with it sent (R387). -/
def Port.ackNow (p : Port) : Bool × BitVec 24 × Port :=
  if p.prioAckDue then (true, p.rxPrio.expected, { p with prioAckDue := false }) else (false, p.rxData.expected, p)

/-- A flit sent on a lane with its CRC. -/
def Port.emit (p : Port) (lane : Nat) (type : BitVec 4) (seq : BitVec 24) (stream : BitVec 12) (body : List Byte) :
    Flit × Port :=
  let a := p.ackNow
  let f : Flit := { type := type, seq := seq, ackc := a.1, ack := a.2.1, stream := stream, body := body }
  let f := { f with crc := flitCrc f }
  (f, { a.2.2 with line := a.2.2.line ++ [(lane, f)] })

/-- A control record's kind, numbered in the order of R385, and its fields. -/
def Ctrl.fields : Ctrl → Nat × List Nat
  | .ident b => (0, [b.rank.toNat, b.port.toNat, b.version.toNat, b.features.toNat])
  | .measure => (1, [])
  | .measureEcho t => (1, [t])
  | .replay prio s => (2, [b2n prio, s.toNat])
  | .credit i n => (3, [i.toNat, n])
  | .refuse i n => (4, [i.toNat, n])
  | .resume i n => (5, [i.toNat, n])
  | .sleep r p e => (6, [r.toNat, p.toNat, e.toNat])

/-- Send a link control record in a CTRL flit (R384, R385). The bytes of a record are the implementation's. -/
def Port.control (p : Port) (c : Ctrl) (lane : Nat := 0) : Port :=
  let e := p.emit lane 3 0 0 ((Config.ctrlBytes c.fields.1 c.fields.2).take 4096)
  { e.2 with ctrl := p.ctrl ++ [c] }

/-- Send an IDLE flit on every lane that has carried nothing since `line` held n flits (R387). -/
def Port.idle (n : Nat) (p : Port) : Port :=
  if !p.up then p
  else ((List.range 8).filter fun l => !((p.line.drop n).any fun x => x.1 == l)).foldl (fun p l => (p.emit l 0 0 0 []).2) p

/-! ### Sending -/

/-- Whether one more flit fits the far-link buffer (R214, R397). -/
def Port.fits (p : Port) (size : Nat) : Bool := decide ((p.data.held.length + 1) * 4096 ≤ size)

/-- Whether a stream may send its next flit (R395, R396). -/
def TxStream.ready (t : TxStream) : Bool :=
  !t.stopped && decide (t.sent < t.bodies.length) && decide (t.sent - t.delivered < t.win)

/-- The acknowledged copy of a stream's next flit that the far-link buffer still holds, after a refusal (R396, R397). -/
def Port.oldCopy (p : Port) (t : TxStream) : Option TxFlit :=
  p.data.held.find? fun x => x.acked && x.flit.stream == t.id && x.idx == t.sent

/-- Whether a stream may send its next flit now: its lane ends no stomped flit (R400), and the buffer has room or holds the flit
already (R397). -/
def Port.maySend (p : Port) (size : Nat) (t : TxStream) : Bool :=
  t.ready && p.stomp.map Prod.fst != some (lget 0 t.lanes t.sent) && (p.fits size || (p.oldCopy t).isSome)

/-- The lowest place of 4,096 bytes in the far-link buffer that holds no flit. -/
def freeSlot (l : List TxFlit) : Nat := ((List.range (l.length + 1)).find? fun i => l.all fun x => x.slot != i).getD 0

/-- Send data flits while some stream may (R389, R395, R397). Fuel: flits queued. -/
def Port.pump (size : Nat) : Nat → Port → Port
  | 0, p => p
  | k + 1, p =>
    if !p.up then p
    else match p.tx.find? (p.maySend size) with
      | none => p
      | some t =>
        let lane := lget 0 t.lanes t.sent
        let slot := match p.oldCopy t with | some x => x.slot | none => freeSlot p.data.held
        let held := p.data.held.filter fun x => !(x.acked && x.flit.stream == t.id && x.idx == t.sent)
        let e := p.emit lane 1 p.data.next t.id (lget [] t.bodies t.sent)
        let p := e.2
        let data := { p.data with next := p.data.next + 1, held := held ++ [{ lane := lane, flit := e.1, idx := t.sent, slot := slot }] }
        let tx := p.tx.map fun x => if x.id = t.id then { x with sent := x.sent + 1 } else x
        Port.pump size k { p with data := data, tx := tx }

/-- Size of a port's far-link buffer (R213, R483). -/
def State.flSize (s : State) (h m : Nat) : Nat :=
  let p := lget {} s.loaded.placement.hubs h
  if m = 0 then p.fl0.2 else p.fl1.2

/-- Place of a flit's body in a port's far-link buffer in memory (R213, R214). -/
def State.flitAt (s : State) (h m slot : Nat) : Nat :=
  let p := lget {} s.loaded.placement.hubs h
  (if m = 0 then p.fl0.1 else p.fl1.1) + 4096 * slot

/-- Keep a sent flit's body in the far-link buffer (R214, R389). -/
def State.keepFlit (s : State) (h m : Nat) (x : TxFlit) : State := s.agentWrite h (s.flitAt h m x.slot) x.flit.body (queuePort m)

/-- Spell a priority message's fields for the words the spec lays out no bits in: MTYPE and the fields (R331, R367, R375, R398, R413,
R446, R451). -/
def prioFields : PrioBody → Nat × List Nat
  | .vote b => (1, [b2n b.nonfinite, b.cls.toNat])
  | .outcome b => (2, [b2n b.discard, b.reason.toNat])
  | .notice _ => (3, [])
  | .ready _ => (4, [])
  | .subst _ => (4, [])
  | .go _ => (4, [])
  | .done _ => (4, [])
  | .openJob => (4, [])
  | .stall _ => (4, [])
  | .digest b => (5, [b.op.toNat, b.digest.toNat])
  | .phase b => (6, [0, b.round.toNat, b2n b.place])
  | .phaseDone b => (6, [1, b.round.toNat, b2n b.place])
  | .timeSync a => (7, [a])
  | .timeReply a b => (8, [a, b])

/-- Words 2 to 7 of a message: of a FAULT_NOTICE (R446) and a RESTART message (R451, R494) as laid out, of the others as the
implementation lays them out. -/
def prioWords (epoch : W32) (b : PrioBody) : List Nat :=
  let sub := fun (n at' : Nat) (ws : List Nat) => (n * 2 ^ 60 + at' * 2 ^ 56 + epoch.toNat) :: ws
  match b with
  | .notice n => [n.epoch.toNat * 2 ^ 32 + n.code.toNat * 2 ^ 24 + n.die.toNat * 2 ^ 18, n.detail0.toNat, n.detail1.toNat, n.seq.toNat, 0, 0]
  | .ready r => sub 0 0 [r.gen.toNat, r.flags.toNat, r.slot0Gen.toNat, r.slot1Gen.toNat, r.pdigest.toNat * 2 ^ 16 + r.refusal.toNat]
  | .subst x => sub 1 0 [x.lost.toNat * 2 ^ 53 + x.spare.toNat * 2 ^ 42 + x.source.toNat * 2 ^ 31, 0, 0, 0, 0]
  | .go g => sub 2 g.attempt.toNat [g.gen.toNat, g.mode.toNat * 2 ^ 62 + b2n g.commit * 2 ^ 61 + g.substs.toNat, 0, 0, 0]
  | .done g => sub 3 0 [g.toNat, 0, 0, 0, 0]
  | .openJob => sub 4 0 [0, 0, 0, 0, 0]
  | .stall a => sub 5 a.toNat [0, 0, 0, 0, 0]
  | b => (List.range 6).map fun i => (Config.prioWord (prioFields b).1 (prioFields b).2 (i + 2)).toNat

/-- The 64 bytes of a priority message (R398). -/
def prioBytes (m : PrioHead) (b : PrioBody) : List Byte :=
  let w0 := (prioFields b).1 * 2 ^ 56 + b2n m.bcast * 2 ^ 55 + m.src.toNat * 2 ^ 44 + m.dst.toNat * 2 ^ 33 + m.epoch.toNat
  (w0 :: m.step.toNat :: prioWords m.epoch b).flatMap (leBytes 8)

/-- Send a PRIO flit with one message (R384, R389, R398), on the lane of its number modulo 8 (DESIGN CHOICE: the lane, and how many
messages a flit takes, are the sender's). -/
def Port.putPrio (p : Port) (m : PrioHead) (b : PrioBody) : Port :=
  let lane := p.prio.next.toNat % 8
  let e := p.emit lane 2 p.prio.next 0 (prioBytes m b)
  { e.2 with prio := { e.2.prio with next := p.prio.next + 1, held := p.prio.held ++ [{ lane := lane, flit := e.1 }] }
             prioOut := p.prioOut ++ [(m, b)] }

/-- Put a priority message on a port's priority class (R389, R398): held until it is acknowledged, in SRAM of 64 flits. Without room it
waits, and so it does toward a far end that sleeps (R553). -/
def Port.sendPrio (p : Port) (m : PrioHead) (b : PrioBody) : Port :=
  if !p.up then (if p.farAsleep then { p with waiting := p.waiting ++ [(m, b)] } else p)
  else if p.waiting ≠ [] || 64 ≤ p.prio.held.length then { p with waiting := p.waiting ++ [(m, b)] }
  else p.putPrio m b

/-- Send the messages that wait, as far as there is room (fuel: messages). -/
def Port.flushPrio : Nat → Port → Port
  | 0, p => p
  | k + 1, p =>
    match p.waiting with
    | [] => p
    | x :: t => if !p.up || 64 ≤ p.prio.held.length then p else Port.flushPrio k (({ p with waiting := t } : Port).putPrio x.1 x.2)

/-- Let a port send what it may: priority flits first (R398), and each data flit into its far-link buffer. -/
def State.pumpPort (s : State) (h m : Nat) : State :=
  let p := s.port h m
  let q := Port.pump (s.flSize h m) ((p.tx.map fun t => t.bodies.length).sum) (p.flushPrio p.waiting.length)
  (q.data.held.filter fun x => !seqLt x.flit.seq p.data.next).foldl (fun s x => s.keepFlit h m x) (s.updPort h m fun _ => q)

/-- Drop flits both acknowledged and delivered from the buffer, a flit of which a later copy is held, and streams that are over
(R397). -/
def Port.release (p : Port) : Port :=
  let gone := fun (x : TxFlit) => x.acked && (match p.tx.find? fun t => t.id = x.flit.stream with
    | none => true
    | some t => decide (x.idx < t.delivered) ||
        p.data.held.any fun y => y.flit.stream == t.id && y.idx == x.idx && seqLt x.flit.seq y.flit.seq)
  let tx := p.tx.filter fun t => !(t.closed && decide (t.bodies.length ≤ t.delivered))
  { p with data := { p.data with held := p.data.held.filter fun x => !gone x }, tx := tx }

/-- Start a stream on a port. -/
def Port.openTx (p : Port) (bodies : List (List Byte)) (lanes : List Nat) (win : Nat) (closed : Bool) (kind : Nat := 0) (step : Nat := 0) :
    Port :=
  { p with tx := p.tx ++ [{ id := p.nextId, kind := kind, step := step, bodies := bodies, lanes := lanes, win := win, closed := closed }]
           nextId := p.nextId + 1 }

/-- Cut a stream's bytes into flit bodies. -/
def flitBodies : Nat → List Byte → List (List Byte)
  | 0, _ => []
  | _, [] => []
  | k + 1, b :: t => (b :: t).take 4096 :: flitBodies k ((b :: t).drop 4096)

/-! ### Stream headers -/

/-- A stream header (R393). -/
structure StreamHead where
  step : Nat := 0
  kind : Nat := 0
  src : Nat := 0
  dst : Nat := 0
  hub : Nat := 0
  fmt : Nat := 0
  op : Nat := 0
  elems : Nat := 0
  win : Nat := 1
  bytes : Nat := 0
  offset : Nat := 0
  epoch : Nat := 0
  deriving DecidableEq, Repr

/-- The 64 bytes of a header (R393). -/
def StreamHead.encode (x : StreamHead) : List Byte :=
  leBytes 8 x.step ++
  leBytes 8 (x.kind % 4 * 2 ^ 62 + x.src % 2048 * 2 ^ 51 + x.dst % 2048 * 2 ^ 40 + x.hub % 8 * 2 ^ 37 + x.fmt % 16 * 2 ^ 32 + x.op % 2 ^ 32) ++
  leBytes 8 (x.elems % 2 ^ 32 * 2 ^ 32 + x.win % 2 ^ 16 * 2 ^ 16) ++ leBytes 8 x.bytes ++ leBytes 8 (x.offset % 2 ^ 42) ++
  leBytes 8 (x.epoch % 2 ^ 32) ++ List.replicate 16 0

/-- A header's fields (R393). -/
def StreamHead.decode (b : List Byte) : StreamHead :=
  let w := fun i => leNat ((b.drop (8 * i)).take 8)
  { step := w 0, kind := bits (w 1) 63 62, src := bits (w 1) 61 51, dst := bits (w 1) 50 40, hub := bits (w 1) 39 37
    fmt := bits (w 1) 35 32, op := bits (w 1) 31 0, elems := bits (w 2) 63 32, win := bits (w 2) 31 16, bytes := w 3
    offset := bits (w 4) 41 0, epoch := bits (w 5) 31 0 }

/-- The 16 bytes of a trailer (R393). -/
def trailer (payload : List Byte) (tag : Option Tag) : List Byte :=
  let t : Nat × Nat := match tag with
    | none => (3, 0)
    | some t => t.fields
  leBytes 8 t.2 ++ leBytes 8 ((crc32c payload).toNat * 2 ^ 32 + t.1)

/-- The tag of a trailer. -/
def trailerTag (b : List Byte) : Option Tag :=
  let g := leNat (b.take 8)
  match leNat ((b.drop 8).take 8) % 4 with
  | 0 => some .empty
  | 1 => some (.prov g)
  | 2 => some (.final g)
  | _ => none

/-- Send one stream from a port (R393, R403). -/
def State.sendStream (s : State) (h m : Nat) (x : StreamHead) (payload : List Byte) (tag : Option Tag) : State :=
  let x := { x with bytes := payload.length, src := s.crown.rankNow.toNat, epoch := s.crown.epoch.toNat }
  let all := x.encode ++ payload ++ trailer payload tag
  let bodies := flitBodies all.length all
  let lanes := (List.range bodies.length).map (· % 8)
  (s.updPort h m fun p => p.openTx bodies lanes x.win true x.kind x.step).pumpPort h m

/-- Bytes of a gauntlet entry (R353). -/
def GEntry.bytes (g : GEntry) : List Byte := leBytes 8 (g.elem * 2 ^ 32 + g.scale.toNat * 2 ^ 24 + g.value.toNat)

/-- Gauntlet entries of bytes. -/
def gEntries : Nat → List Byte → List GEntry
  | 0, _ => []
  | k + 1, b =>
    let w := leNat (b.take 8)
    { elem := bits w 63 32, scale := BitVec.ofNat 8 (bits w 31 24), value := BitVec.ofNat 16 (bits w 15 0) } :: gEntries k (b.drop 8)

/-- Place of element e's first byte and its last in a stream's payload: 2-byte elements, in S16 blocks or not (R39). -/
def elemBytes (s16 : Bool) (e : Nat) : Nat × Nat :=
  let a := if s16 then 513 * (e / 256) + 1 + 2 * (e % 256) else 2 * e
  (a, a + 1)

/-- The lane of an entry (R408): from (l + 4) mod 8 up, the first that carried none of the element's bytes on the main path. -/
def gauntLane (s16 : Bool) (e : Nat) : Nat :=
  let b := elemBytes s16 e
  let l := (64 + b.1) / 4096 % 8
  let l' := (64 + b.2) / 4096 % 8
  (((List.range 8).map fun i => (l + 4 + i) % 8).find? fun x => x ≠ l && x ≠ l').getD 0

/-- Send a gauntlet sub-stream (R353, R408): one queue for each lane, each entry on its own lane. -/
def State.sendGaunt (s : State) (h m : Nat) (x : StreamHead) (s16 : Bool) (g : List GEntry) : State :=
  let queues := (List.range 8).map fun l => (l, g.filter fun e => gauntLane s16 e.elem == l)
  let payload := queues.flatMap fun q => q.2.flatMap GEntry.bytes
  let x := { x with kind := 2, elems := g.length, bytes := payload.length, src := s.crown.rankNow.toNat, epoch := s.crown.epoch.toNat }
  let cuts := queues.flatMap fun q =>
    let b := q.2.flatMap GEntry.bytes
    (flitBodies b.length b).map fun c => (q.1, c)
  let first := (cuts.head?.map Prod.fst).getD 0
  let last := (cuts.getLast?.map Prod.fst).getD 0
  let parts := (first, x.encode) :: cuts ++ [(last, trailer payload none)]
  (s.updPort h m fun p => p.openTx (parts.map Prod.snd) (parts.map Prod.fst) x.win true x.kind x.step).pumpPort h m

/-! ### Priority messages -/

/-- Output port of a destination rank by the route table (R402): hub and port. A rank that a spare has taken is routed by the
spare's own rank (R460). -/
def State.routePort (s : State) (dst : Nat) : Option (Nat × Nat) :=
  let to' := match s.loaded.spareRoutes.find? fun x => x.1 == dst with
    | some x => x.2
    | none => dst
  let b := (lget 0 s.loaded.route.route to').toNat
  if bit b 7 then some (bits b 3 0 / 2, bits b 3 0 % 2) else none

/-- Ports of the broadcast tree (R399). -/
def State.treePorts (s : State) : List (Nat × Nat) :=
  ((List.range 16).filter fun p => bit s.loaded.route.bcastPorts p).map fun p => (p / 2, p % 2)

/-- Word 0 and 1 of a message of this device (R398). -/
def State.prioHead (s : State) (dst : Nat) (bcast : Bool) (step : Nat) : PrioHead :=
  { port := 0, src := s.crown.rankNow, dst := BitVec.ofNat 11 dst, bcast := bcast, epoch := s.crown.epoch
    step := BitVec.ofNat 64 step }

/-- Route a message to its destination (R398, R402): no valid route is a fault. -/
def State.routePrio (s : State) (m : PrioHead) (b : PrioBody) : State :=
  match s.routePort m.dst.toNat with
  | some (h, p) => s.updPort h p fun x => x.sendPrio m b
  | none => s.streamFault 0 6 0 m.dst.toNat 0xFFFF

/-- Send a message to another rank. -/
def State.sendPrio (s : State) (dst step : Nat) (b : PrioBody) : State := s.routePrio (s.prioHead dst false step) b

/-- Send a message to every other rank over the broadcast tree (R399). -/
def State.bcastPrio (s : State) (step : Nat) (b : PrioBody) : State :=
  s.treePorts.foldl (fun s p => s.updPort p.1 p.2 fun x => x.sendPrio (s.prioHead 0 true step) b) s

/-- Whether a fault notice's EPOCH is below the device's own: it is ignored, and not forwarded (R447). -/
def State.staleNotice (s : State) (b : PrioBody) : Bool := match b with | .notice n => decide (n.epoch.toNat < s.crown.epoch.toNat) | _ => false

/-- Types a device drops when their EPOCH is below its own (R398). -/
def prioAged : PrioBody → Bool
  | .vote _ => true
  | .outcome _ => true
  | .digest _ => true
  | .phase _ => true
  | .phaseDone _ => true
  | _ => false

/-- Whether a message is one hop's own and is never relayed (R413). -/
def prioHop : PrioBody → Bool
  | .timeSync _ => true
  | .timeReply _ _ => true
  | _ => false

/-- Take the acknowledgement a good flit carries (R384, R389, R391): it never moves back. -/
def Port.takeAck (p : Port) (prio : Bool) (a : BitVec 24) : Port :=
  if prio then
    if seqLt p.prio.acked a && !seqLt p.prio.next a then
      { p with prio := { p.prio with acked := a, replays := 0, held := p.prio.held.filter fun x => !seqLt x.flit.seq a } }
    else p
  else if seqLt p.data.acked a && !seqLt p.data.next a then
    let held := p.data.held.map fun x => if seqLt x.flit.seq a then { x with acked := true } else x
    { p with data := { p.data with acked := a, replays := 0, held := held } }.release
  else p

/-- Take a PRIO flit's number in sequence (R389, R390). -/
def Port.takePrioSeq (p : Port) (q : BitVec 24) : Port :=
  { p with rxPrio := { p.rxPrio with expected := p.rxPrio.expected + 1, discard := false }, prioAckDue := true, prioOpen := some q
           prioEarly := p.prioEarly.filter fun e => e.1.seq != q || !e.1.newFlit }

/-- A message at the link (R389, R390, R392): whether it is taken now. A flit taken before, or while another number is awaited after
a loss, is discarded; one that comes early is held, up to 64 flits of both classes. -/
def Port.prioSeq (p : Port) (m : PrioHead) (b : PrioBody) (hub : Fin 8) : Port × Bool :=
  let p := p.takeAck m.ackc m.ack
  if !m.newFlit then
    if p.prioOpen = some m.seq then ({ p with prioEarly := p.prioEarly.erase (m, b, hub) }, true)
    else if p.prioEarly.any fun e => e.1.seq == m.seq then ({ p with prioEarly := p.prioEarly ++ [(m, b, hub)] }, false)
    else (p, false)
  else if m.seq = p.rxPrio.expected then (p.takePrioSeq m.seq, true)
  else
    let p := { p with prioOpen := none }
    let early := p.rxData.early.length + (p.prioEarly.filter fun e => e.1.newFlit).length
    if seqLt m.seq p.rxPrio.expected || p.rxPrio.discard || 64 ≤ early || (p.prioEarly.any fun e => e.1.seq == m.seq) then (p, false)
    else ({ p with prioEarly := p.prioEarly ++ [(m, b, hub)] }, false)

/-- A message arrives (R392, R398, R399): in sequence it is relayed or forwarded, and is taken when it is for this device and not
dropped. A port that is down delivers nothing. -/
def State.prioIn (s : State) (m : PrioHead) (b : PrioBody) (hub : Fin 8 := 0) : State × Bool :=
  let h := m.port.val / 2
  let p := m.port.val % 2
  let r := (s.port h p).prioSeq m b hub
  if !(s.port h p).up then (s, false)
  else if !r.2 || s.staleNotice b then (s.updPort h p fun _ => r.1, false)
  else
    let s := s.updPort h p fun _ => r.1
    let mine := prioHop b || m.bcast || m.dst == s.crown.rankNow
    let s := if prioHop b then s
      else if m.bcast then (s.treePorts.filter fun q => q != (h, p)).foldl (fun s q => s.updPort q.1 q.2 fun x => x.sendPrio m b) s
      else if mine then s
      else s.routePrio m b
    (s, mine && !(prioAged b && decide (m.epoch.toNat < s.crown.epoch.toNat)))

/-- Messages whose flits came early and now stand next in sequence at a port, in order (R389). -/
def State.prioNext (s : State) (q : Nat) : List (PrioHead × PrioBody × Fin 8) :=
  let p := s.port (q / 2) (q % 2)
  let run := ((List.range 64).map fun i => p.rxPrio.expected + BitVec.ofNat 24 i).takeWhile fun n =>
    p.prioEarly.any fun e => e.1.seq == n && e.1.newFlit
  run.flatMap fun n => p.prioEarly.filter fun e => e.1.seq == n

/-! ### Partner checkpoint slots -/

/-- Slot n of a hub. -/
def Hub.slot (x : Hub) (n : Nat) : CkptSlot := if n = 0 then x.slot0 else x.slot1

/-- Replace slot n. -/
def Hub.setSlot (x : Hub) (n : Nat) (c : CkptSlot) : Hub := if n = 0 then { x with slot0 := c } else { x with slot1 := c }

/-- Generation of the last complete checkpoint, and its slot (R215). -/
def Hub.lastCkpt (x : Hub) : Option (Nat × Nat) :=
  match x.slot0.state == 2, x.slot1.state == 2 with
  | true, true => if x.slot0.gen < x.slot1.gen then some (x.slot1.gen, 1) else some (x.slot0.gen, 0)
  | true, false => some (x.slot0.gen, 0)
  | false, true => some (x.slot1.gen, 1)
  | false, false => none

/-- The slot an incoming checkpoint writes: the one that does not hold the last complete one (R215). -/
def Hub.ckptSlot (x : Hub) : Nat := match x.lastCkpt with | some (_, 0) => 1 | _ => 0

/-- Empty the slot that an incoming checkpoint writes (R456). -/
def State.emptySlot (s : State) (h : Nat) : State := s.updHub h fun x => { x.setSlot x.ckptSlot {} with ckptBad := true }

/-- Bytes of a checkpoint stream's payload from a place in it go into the slot (R395, R456, R457): the header's STEP is taken as the
generation, which the trailer confirms (DESIGN CHOICE). The first bytes of another generation begin the slot anew (R215); a byte
written twice, or outside the slot (DESIGN CHOICE), empties it. -/
def State.ckptPiece (s : State) (x : StreamHead) (at' : Nat) (b : List Byte) : State :=
  let y := s.hub x.hub
  let n := y.ckptSlot
  let c := y.slot n
  let area := (lget {} s.loaded.placement.hubs x.hub).partner
  let going := c.state == 1 && c.gen == x.step
  if y.lastCkpt.map Prod.fst = some x.step || (!going && at' ≠ 0) then s
  else
    let c : CkptSlot := if going then c else { state := 1, gen := x.step }
    let lo := x.offset + at'
    let hi := lo + b.length
    if (c.written.any fun r => decide (r.1 < hi ∧ lo < r.2)) || decide (area.2 < hi) then s.emptySlot x.hub
    else
      (s.agentWrite x.hub (area.1 + n * area.2 + lo) b).updHub x.hub fun y =>
        y.setSlot n { c with written := if b = [] then c.written else addRange c.written (lo, hi) }

/-- The end of a checkpoint stream (R456, R457): FINAL of the slot's generation seals its bytes, and the slot is complete once every
byte is sealed; any other tag empties the slot. -/
def State.ckptEnd (s : State) (x : StreamHead) (tag : Option Tag) : State :=
  let y := s.hub x.hub
  let n := y.ckptSlot
  let c := y.slot n
  if y.lastCkpt.map Prod.fst = some x.step then s
  else if tag ≠ some (.final x.step) then s.emptySlot x.hub
  else if c.state ≠ 1 || c.gen ≠ x.step then s
  else
    let w := addRange c.sealed (x.offset, x.offset + x.bytes)
    let full := coversRange w 0 (lget {} s.loaded.placement.hubs x.hub).partner.2
    s.updHub x.hub fun y => y.setSlot n { c with state := if full then 2 else 1, sealed := w }

/-! ### Restores -/

/-- The CKPT_SEND items of a hub in a class (R365). -/
def State.ckptItems (s : State) (cls h : Nat) : List (Head × HubItem) :=
  (lget [] (s.hubMouldOf cls h).lists 5).filterMap fun e => match e with
    | .item hd it => match it.body with | .ckptSend _ => some (hd, it) | _ => none
    | .rbegin _ _ _ _ => none
    | .rend _ => none

/-- The checkpoint ranges of a hub (R456, R519): bank 0 address, bytes, offset in the slot. -/
def State.ckptRanges (s : State) (h : Nat) : List (Nat × Nat × Nat) :=
  (s.ckptItems s.cls h).filterMap fun x => match x.2.body with
    | .ckptSend o => some (s.selAddr x.2.sel x.2.addr, x.2.elems, o)
    | _ => none

/-- Where bytes of a restore stream go (R461), from an offset in it: bank 0 address and bytes. In TWIN mode the offset is the bank 0
address (DESIGN CHOICE: the spec names no place for a twin's range in the header); in ROLLBACK the hub's own CKPT_SEND items place
them. -/
def State.restoreParts (s : State) (h off : Nat) (b : List Byte) : List (Nat × List Byte) :=
  if s.crown.mode = 1 then [(off, b)]
  else (s.ckptRanges h).filterMap fun r =>
    let lo := max off r.2.2
    let hi := min (off + b.length) (r.2.2 + r.2.1)
    if hi ≤ lo then none else some (r.1 + (lo - r.2.2), (b.drop (lo - off)).take (hi - lo))

/-- Whether bytes of a bank 0 range are covered in the bank of a generation. -/
def State.covers (s : State) (h a len g : Nat) : Bool :=
  (s.tagRanges h).any fun r => r.1 % 2 == g % 2 &&
    coversRange (tget [] (s.hub h).covered r.1) (a + g % 2 * s.bankSpan) (a + g % 2 * s.bankSpan + len)

/-- Whether all that a restore brings has come (R461): in TWIN mode every tagged range, in ROLLBACK every checkpoint range. -/
def State.restoredAll (s : State) : Bool :=
  (List.range 8).all fun h =>
    if s.crown.mode = 1 then (s.taggedRanges h).all fun r => s.covers h r.1 r.2 s.crown.target
    else (s.ckptRanges h).all fun r => s.covers h r.1 r.2.1 s.crown.target

/-- The work of the step on a hub: lists, tokens, endpoints, nodes, updates, digests. -/
def Hub.cleared (x : Hub) : Hub :=
  { x with lists := [], tokens := [], eps := [], nodes := [], upds := [], fences := 0, nonfinite := false, n2 := none, normQ := []
           ownDig := [], needDig := [], covered := [] }

/-- Change every hub that has been touched. -/
def State.mapHubs (s : State) (f : Hub → Hub) : State := { s with hubs := s.hubs.map fun (e : Nat × Hub) => (e.1, f e.2) }

/-- Start the rebuild of the working copies of the committed generation on every hub (R461). -/
def State.startRebuild (s : State) : State := (s.mapHubs Hub.cleared).updCrown fun c => { c with rebuild := true }

/-- Bytes of a restore stream, from an offset, go into the bank of generation T (R461). -/
def State.restorePiece (s : State) (h off : Nat) (b : List Byte) : State :=
  (s.restoreParts h off b).foldl (fun s p =>
    let a := p.1 + s.crown.target % 2 * s.bankSpan
    (s.agentWrite h a p.2).cover h a p.2.length s.crown.target) s

/-- The end of a restore stream (R461): the last one of a ROLLBACK lets the rebuild begin. -/
def State.restoreEnd (s : State) : State :=
  if s.crown.mode = 2 && s.restoredAll then
    ((s.mapHubs fun x => { x with restoring := false }).updCrown fun c => { c with gen := s.crown.target }).startRebuild
  else s

/-- Whether a stream of KIND CKPT carries a re-shard entry (R375): FMT 0xF, which no item has. It lands in scratch, at OFFSET, and OP is
the entry's place in the table (DESIGN CHOICE: the spec gives these copies no stream form). -/
def StreamHead.reshards (x : StreamHead) : Bool := x.fmt == 0xF

/-- Bytes of a stream of KIND CKPT, from a place in its payload, are written (R394, R395). What a partner sends back to a rank that
keeps its own bank (R461) is dropped. -/
def State.bankPiece (s : State) (x : StreamHead) (at' : Nat) (b : List Byte) : State :=
  if x.reshards then s.agentWrite x.hub (x.offset + at') b
  else if (s.hub x.hub).restoring then s.restorePiece x.hub (x.offset + at') b
  else if s.crown.rstate = .restarting && decide (s.crown.order < 10) then s
  else s.ckptPiece x at' b

/-- The end of a stream of KIND CKPT. -/
def State.bankEnd (s : State) (x : StreamHead) (tag : Option Tag) : State :=
  if x.reshards then s.updCrown fun c => { c with reshardIn := addOnce c.reshardIn x.op }
  else if (s.hub x.hub).restoring then s.restoreEnd
  else if s.crown.rstate = .restarting && decide (s.crown.order < 10) then s
  else s.ckptEnd x tag

end Sys2Proof.Machine
end

