-- ==== Sys2Proof/Machine/Link.lean ====
section
/-! DEFINITION. Fabric ports: link-up and flight (R381 to R383, R405), loss and sleep (R388, R452), flits received in order
(R386 to R392), streams received, relayed and refused (R394 to R397, R400), and link replay (R390, R391). -/
namespace Sys2Proof.Machine

/-! ### Link-up -/

/-- Whether the hubs have power and the panel is trained (R475 order 6), outside service mode, sleep and quench. -/
def State.hubsOn (s : State) : Bool :=
  s.crownOn && decide (6 ∈ s.startup.done) && !s.startup.service && !s.power.mitten && !s.power.quenched

/-- Whether link-up is tried: at start-up, in a restart, on a wake, or toward a sleeping far end (R381, R382, R388). -/
def State.mayTrain (s : State) (h m : Nat) : Bool :=
  let p := s.port h m
  s.hubsOn && (s.wire h m).1 && !p.up && !p.timedOut &&
    (p.farAsleep || s.power.waking || decide (10 ∉ s.startup.done) || s.crown.order = 2)

/-- A port as link-up begins: nothing sent, nothing received (DESIGN CHOICE: both ends number from 0). What waits for a far end that
sleeps goes on waiting (R553). -/
def Port.retrain (p : Port) : Port :=
  { failed := p.failed, line := p.line, ctrl := p.ctrl, prioOut := p.prioOut, waiting := p.waiting
    tx := if p.farAsleep then p.tx.filter (fun t => t.sent == 0) else [], nextId := if p.farAsleep then p.nextId else 0 }

/-- A port that has come up sends the messages that waited for it (R553). -/
def Port.wakeUp (p : Port) : Port := p.flushPrio p.waiting.length

/-- LANE_LOCK (R381, R382): orders 1 and 2 need all 8 lanes and at most 1.0 us of skew. -/
def execLaneLock (a : PortAt) (lanes : Byte) (skewNs : Nat) (s : State) : Out :=
  let h := a.hub.val
  let m := a.port.val
  .next (if !s.mayTrain h m then s
    else s.updPort h m fun p =>
      let p := { p with lanes := lanes, skew := BitVec.ofNat 8 (min 255 (skewNs / 4)) }
      if lanes = 0xFF && decide (skewNs ≤ 1000) then
        { p with order := 2 }.control (.ident
          { rank := s.startup.rank, port := BitVec.ofNat 4 (2 * h + m), version := 1, features := Config.portFeatures })
      else { p with order := 0 })

/-- IDENT (R381, R383): checked against the wiring table; the lower version and the common features run. -/
def execIdent (a : PortAt) (b : IdentBody) (s : State) : Out :=
  let h := a.hub.val
  let m := a.port.val
  .next (if !s.mayTrain h m || (s.port h m).order < 2 then s
    else
      let w := s.wire h m
      s.updPort h m fun p =>
        let p := { p with farRank := b.rank, farPort := b.port, features := b.features &&& Config.portFeatures
                          version := if b.version.toNat < 1 then b.version else 1 }
        if b.rank.toNat = w.2.1 && b.port.toNat = w.2.2 then
          (List.range 64).foldl (fun p i => p.control .measure (i % 8)) { p with order := 4, samples := [] }
        else { p with order := 3 })

/-- Insert into a sorted list. -/
def insertInt (x : Int) : List Int → List Int
  | [] => [x]
  | y :: t => if x ≤ y then x :: y :: t else y :: insertInt x t

/-- Median of samples: of an even number, the mean of the two in the middle (DESIGN CHOICE: R405 takes 64 samples and says
only median). Answered doubled. -/
def median2 (l : List Int) : Int :=
  let s := l.foldl (fun l x => insertInt x l) []
  lget 0 s ((s.length - 1) / 2) + lget 0 s (s.length / 2)

/-- MEASURE (R405): a request is echoed, by a port that is up too; the 64th echo gives the flight, and the port is up (R381). -/
def execMeasure (a : PortAt) (b : MeasureBody) (s : State) : Out :=
  let h := a.hub.val
  let m := a.port.val
  .next (if !s.mayTrain h m && !(s.port h m).up then s
    else match b with
      | .request turnaround => if (s.port h m).order < 2 then s else s.updPort h m fun p => p.control (.measureEcho turnaround)
      | .echo roundTrip turnaround =>
        if (s.port h m).order ≠ 4 || (s.port h m).up then s
        else
          let s := s.updPort h m fun p =>
            let l := p.samples ++ [(roundTrip : Int) - turnaround - Config.phyLatency h m]
            if l.length < 64 then { p with samples := l }
            else Port.wakeUp { p with samples := l, flight := (median2 l / 4).toNat, measured := true, order := 6, up := true, farAsleep := false }
          if (s.port h m).up then s.pumpPort h m else s)

/-- LINKUP_TIMEOUT (R382): at start-up and in a restart a connected port without order 4 after 1 s stays down; at start-up the
device refuses with WIRING (R492). Not while the far end sleeps. -/
def execLinkupTimeout (a : PortAt) (s : State) : Out :=
  let h := a.hub.val
  let m := a.port.val
  .next (if !s.mayTrain h m || s.power.waking || (s.port h m).farAsleep || 4 ≤ (s.port h m).order then s
    else
      let s := s.updPort h m fun p => { p with timedOut := true }
      if 10 ∈ s.startup.done || s.startup.refusal ≠ 0 then s
      else { s with startup := { s.startup with refusal := 0x0E } })

/-- A LINK fault (R572). -/
def State.linkFault (s : State) (h m cause cls seq : Nat) : State :=
  s.report (hubDie h) 0x06 [(64, s.stepNo), (3, h), (1, m), (2, cause), (1, cls), (24, seq)]

/-- LANE_LOSS (R382, R388, R415, R452): the port goes down; a fault only while the crown is RUNNING. -/
def execLaneLoss (a : PortAt) (lane : Fin 8) (linkLost : Bool) (s : State) : Out :=
  let h := a.hub.val
  let m := a.port.val
  let p := s.port h m
  .next (
    let lost := fun (p : Port) => { p with lanes := if linkLost then 0 else p.lanes &&& ~~~(BitVec.ofNat 8 (2 ^ lane.val)) }
    if p.up then
      let s := s.updPort h m fun p => { lost p with up := false, failed := true, order := 0 }
      if s.crown.rstate = .running then s.linkFault h m (if linkLost then 1 else 2) 0 0 else s
    else s.updPort h m fun p => { lost p with order := 0 })

/-- SLEEP (R388): what is held is acknowledged on idle lanes, nothing more is passed on, and the port goes down without a fault. -/
def execSleep (a : PortAt) (_rank : BitVec 11) (_farPort : BitVec 4) (_epoch : W32) (s : State) : Out :=
  let h := a.hub.val
  let m := a.port.val
  .next (if !(s.port h m).up then s
    else s.updPort h m fun p => { p.idle p.line.length with up := false, farAsleep := true, order := 0, rx := [], prioEarly := [] })

/-- SLEEP_RETRY_TIMER (R388): link-up toward a sleeping far end begins again. -/
def execSleepRetryTimer (a : PortAt) (s : State) : Out :=
  let h := a.hub.val
  let m := a.port.val
  .next (if !(s.port h m).farAsleep || (s.port h m).up || !s.hubsOn then s
    else s.updPort h m fun p => { p.retrain with farAsleep := true })

/-! ### Acknowledgement and replay -/

/-- Send REPLAY for a class (R390): what is early is dropped, and so is everything but the number asked for. -/
def Port.askReplay (p : Port) (prio : Bool) : Port :=
  if prio then
    { p with rxPrio := { p.rxPrio with discard := true }, prioEarly := [], prioOpen := none }.control (.replay true p.rxPrio.expected)
  else { p with rxData := { p.rxData with discard := true, early := [] } }.control (.replay false p.rxData.expected)

/-- Send a held data flit again on its lane, with the acknowledgement of now (R390): its body is read from the far-link buffer, and an
uncorrectable sector of it is a fault (R245, R247). -/
def State.resend (s : State) (h m : Nat) (x : TxFlit) : State :=
  match s.agentRead h 0x5 (s.flitAt h m x.slot) x.flit.body.length m with
  | (none, s) => s
  | (some b, s) => s.updPort h m fun p => (p.emit x.lane 1 x.flit.seq x.flit.stream b).2

/-- Send a held priority flit again on its lane. -/
def Port.resendPrio (p : Port) (x : TxFlit) : Port := (p.emit x.lane 2 x.flit.seq 0 x.flit.body).2

/-- Count one more replay of a number (R391). -/
def TxClass.replay (c : TxClass) (q : BitVec 24) : TxClass := { c with replays := if c.lastS = q then c.replays + 1 else 1, lastS := q }

/-- Replay a class from S (R390, R391): one replay more; the sixteenth of one S without an advance fails the link. -/
def State.replayLink (s : State) (h m : Nat) (prio : Bool) (q : BitVec 24) : State :=
  let s := (s.hubDross h 0x13 1).updPort h m fun p =>
    if prio then { p with prio := p.prio.replay q } else { p with data := p.data.replay q }
  let p := s.port h m
  let c := if prio then p.prio else p.data
  let again := c.held.filter fun x => !seqLt x.flit.seq q
  if 16 ≤ c.replays then
    let s := s.updPort h m fun p => { p with up := false, failed := true, order := 0 }
    if s.crown.rstate = .aborting || s.crown.rstate = .restarting then s else s.linkFault h m 0 (b2n prio) q.toNat
  else if prio then s.updPort h m fun p => again.foldl Port.resendPrio p
  else again.foldl (fun s x => s.resend h m x) s

/-! ### Streams received -/

/-- What a hub does with a stream it has not bound (R394, R346, R400). -/
inductive Verdict where
  | here
  | relay (h m : Nat)
  | refuse
  | drop
  | fault (cause item : Nat)
  deriving DecidableEq, Repr

/-- Whether an operation id is one that an item's executions use (R272). -/
def opMatches (hd : Head) (base op : Nat) : Bool :=
  let d := (hd.adv.map Adv.op).getD 0
  op == base || (d != 0 && (op + 2 ^ 32 - base) % 2 ^ 32 % d == 0)

/-- The PORT_RECV of a hub that names a stream's sender and operation, with its position (R394). -/
def State.recvItem (s : State) (x : StreamHead) : Option (Nat × HubItem) :=
  let m := s.hubMould x.hub
  ((lget [] m.lists 3).zipIdx ++ (lget [] m.lists 4).zipIdx).findSome? fun e => match e.1 with
    | .item hd it => match it.body with
      | .portRecv _ _ =>
        if (s.sel64 it.peerSel it.peer).toNat % 2048 = x.src && opMatches hd ((s.sel64 0 it.op).toNat % 2 ^ 32) x.op &&
          (!s.crown.rebuild || s.rebuilt x.hub it) then some (e.2, it) else none
      | _ => none
    | .rbegin _ _ _ _ => none
    | .rend _ => none

/-- Bind a stream to its item (R394): it must be there, and ELEMS and FMT must be its own. -/
def State.bindItem (s : State) (x : StreamHead) : Verdict :=
  match s.recvItem x with
  | none => .fault 2 0xFFFF
  | some (p, it) =>
    if x.kind = 2 then (match it.body with | .portRecv _ true => .here | _ => .fault 2 p)
    else if x.elems = it.elems && x.fmt = it.fmt then .here else .fault 3 p

/-- Classify a stream (R346, R394, R400). A stream of a step before the open one is dropped: R346 drops those of discarded and
aborted steps, so cause 5 of R572 has no raiser (DEDUCED). -/
def State.classify (s : State) (x : StreamHead) : Verdict :=
  if x.dst ≠ s.crown.rankNow.toNat then
    match s.routePort x.dst with
    | some (h, m) => .relay h m
    | none => .fault 6 0xFFFF
  else if x.epoch < s.crown.epoch.toNat then .drop
  else if s.crown.epoch.toNat < x.epoch then .refuse
  else if x.kind = 1 then .here
  else if x.kind = 3 then
    if s.crown.rebuild then s.bindItem x else if s.crown.rstate = .running then .fault 2 0xFFFF else .refuse
  else match s.crown.openStep with
    | none => if x.step ≤ s.crown.gen && x.step ≠ 0 then .drop else .refuse
    | some o => if o.step < x.step then .refuse else if x.step < o.step then .drop else s.bindItem x

/-- Whether a relay can pass one more flit of an outgoing stream on at once (R397, R400): while a lane awaits the good copy of a stomped
flit, only that copy. -/
def State.relayReady (s : State) (q : Nat) (id : BitVec 12) (lane : Nat) : Bool :=
  let p := s.port (q / 2) (q % 2)
  p.up && p.fits (s.flSize (q / 2) (q % 2)) && (match p.stomp with | some (l, _, i) => l != lane || i == id | none => true) &&
    p.tx.any fun t => t.id == id && !t.stopped && t.sent == t.bodies.length && decide (t.sent - t.delivered < t.win)

/-- Replace the entry of a stream being received; a stream that is over gives its number up to a new one. -/
def Port.setRx (p : Port) (r : RxStream) : Port :=
  if p.rx.any fun x => x.id == r.id && !x.complete then
    { p with rx := p.rx.map fun x => if x.id = r.id && !x.complete then r else x }
  else { p with rx := (p.rx.filter fun x => x.id != r.id) ++ [r] }

/-- Whether every byte of a stream has come (R393). -/
def RxStream.whole (r : RxStream) : Bool := decide (64 + (StreamHead.decode r.head).bytes + 16 ≤ r.seen)

/-- Count delivered flits, and report them once WIN / 4 are unreported (R395). -/
def Port.deliverRx (p : Port) (r : RxStream) (n : Nat) : Port :=
  let r := { r with delivered := r.delivered + n }
  if r.reported < r.delivered && decide (max 1 ((StreamHead.decode r.head).win / 4) ≤ r.delivered - r.reported) then
    (p.setRx { r with reported := r.delivered }).control (.credit r.id r.delivered)
  else p.setRx r

/-- Refuse a stream from the flit that cannot be delivered (R396): what came after it is discarded. -/
def Port.refuseRx (p : Port) (r : RxStream) : Port :=
  (p.setRx { r with refusing := some r.delivered, seen := r.seen - (r.held.map List.length).sum, held := [] }).control
    (.refuse r.id r.delivered)

/-- The payload of a stream so far, and its trailer once it has come whole (R393). -/
def streamParts (b : List Byte) : List Byte × Option (List Byte) :=
  let n := (StreamHead.decode b).bytes
  ((b.drop 64).take n, if b.length < 64 + n + 16 then none else some ((b.drop (64 + n)).take 16))

/-- Whether PCRC holds (R393, R394). -/
def pcrcOk (payload tr : List Byte) : Bool := leNat ((tr.drop 12).take 4) == (crc32c payload).toNat

/-- A PCRC that fails at the receiving hub (R394). -/
def State.pcrcFault (s : State) (x : StreamHead) : State :=
  s.streamFault x.hub 4 x.op x.src (if x.kind = 1 then 0xFFFF else ((s.recvItem x).map Prod.fst).getD 0xFFFF)

/-- A flit of a stream that is bound to this device: one of KIND CKPT is written and so delivered (R395); any other waits for its
PORT_RECV. -/
def State.flitHere (s : State) (h m : Nat) (r : RxStream) (f : Flit) : State :=
  let x := StreamHead.decode r.head
  let r := { r with bound := .here, seen := r.seen + f.body.length }
  if x.kind ≠ 1 then s.updPort h m fun p => p.setRx { r with held := r.held ++ [f.body] }
  else
    let b := r.bytes ++ f.body
    let was := (streamParts r.bytes).1.length
    let now := streamParts b
    let s := s.bankPiece x was (now.1.drop was)
    let s := s.updPort h m fun p => p.deliverRx { r with bytes := b, complete := now.2.isSome } 1
    match now.2 with
    | none => s
    | some tr => if pcrcOk now.1 tr then s.bankEnd x (trailerTag tr) else s.pcrcFault x

/-- A flit of a stream that is relayed (R400): on the lane of the same number, or refused. The good copy of a stomped flit takes that
flit's number. -/
def State.flitRelay (s : State) (h m : Nat) (r : RxStream) (q : Nat) (id : BitVec 12) (lane : Nat) (f : Flit) : State :=
  let oh := q / 2
  let om := q % 2
  let r := { r with bound := .relay q id }
  if !s.relayReady q id lane then s.updPort h m fun p => p.refuseRx r
  else
    let r := { r with seen := r.seen + f.body.length }
    let s := s.updPort oh om fun p => { p with tx := p.tx.map fun t =>
      if t.id = id then { t with bodies := t.bodies ++ [f.body], lanes := t.lanes ++ [lane], closed := r.whole } else t }
    let p := s.port oh om
    let s := match p.stomp with
      | some (l, n, i) =>
        if l ≠ lane || i ≠ id then s
        else
          let k := ((p.tx.find? fun (t : TxStream) => t.id == id).map TxStream.sent).getD 0
          let e := p.emit lane 1 n id f.body
          let y : TxFlit := { lane := lane, flit := e.1, idx := k, slot := freeSlot p.data.held }
          (s.updPort oh om fun _ =>
            { e.2 with stomp := none, tx := e.2.tx.map (fun (t : TxStream) => if t.id = id then { t with sent := t.sent + 1 } else t)
                       data := { e.2.data with held := y :: e.2.data.held } }).keepFlit oh om y
      | none => s
    (s.pumpPort oh om).updPort h m fun p => p.deliverRx { r with complete := r.whole } 1

/-- Drop a flit of a stream that is taken by nothing (R346): the sender gets its credit. -/
def Port.dropFlit (p : Port) (r : RxStream) (f : Flit) : Port :=
  let r := { r with bound := .dropped, seen := r.seen + f.body.length }
  p.deliverRx { r with complete := r.whole } 1

/-- A data flit taken in sequence (R392, R394): its stream's first flit carries the header. -/
def State.takeFlit (s : State) (h m lane : Nat) (f : Flit) : State :=
  let p := s.port h m
  let r : RxStream := (p.rx.find? fun r => r.id == f.stream && !r.complete).getD { id := f.stream, head := f.body.take 64 }
  if r.refusing.isSome then s
  else match r.bound with
    | .here => s.flitHere h m r f
    | .relay q id => s.flitRelay h m r q id lane f
    | .dropped => s.updPort h m fun p => p.dropFlit r f
    | .none =>
      let x := StreamHead.decode r.head
      match s.classify x with
      | .here => s.flitHere h m r f
      | .refuse => s.updPort h m fun p => p.refuseRx r
      | .drop => s.updPort h m fun p => p.dropFlit r f
      | .fault c i =>
        let s := s.streamFault (if c = 6 then h else x.hub) c x.op (if c = 6 then x.dst else x.src) i
        s.updPort h m fun p => p.dropFlit r f
      | .relay oh om =>
        let id := (s.port oh om).nextId
        let s := s.updPort oh om fun p => p.openTx [] [] x.win false
        s.flitRelay h m r (2 * oh + om) id lane f

/-- Let refused streams go on that could now be delivered (R396). -/
def State.resumeRx (s : State) : State :=
  (List.range 16).foldl (fun s q =>
    let p := s.port (q / 2) (q % 2)
    if !p.up then s
    else p.rx.foldl (fun s r => match r.refusing with
      | none => s
      | some k =>
        let ok : Bool := match r.bound with
          | .none => decide (s.classify (StreamHead.decode r.head) ≠ .refuse)
          | .relay o id => (List.range 8).all (s.relayReady o id)
          | .here => match s.recvItem (StreamHead.decode r.head) with
            | some (_, it) => it.epOut == 0xFFF || s.credit (StreamHead.decode r.head).hub it.epOut
            | none => true
          | .dropped => true
        if ok then s.updPort (q / 2) (q % 2) fun p => (p.setRx { r with refusing := none }).control (.resume r.id k) else s) s) s

/-! ### Flits received -/

/-- Take flits held early that now stand next in sequence (fuel: flits held). -/
def State.takeEarly (s : State) (h m : Nat) : Nat → State
  | 0 => s
  | k + 1 =>
    let p := s.port h m
    match p.rxData.early.find? fun e => e.2.seq == p.rxData.expected with
    | none => s
    | some (l, f) =>
      let s := s.updPort h m fun p => { p with rxData :=
        { p.rxData with expected := p.rxData.expected + 1, early := p.rxData.early.filter fun e => e.2.seq != f.seq } }
      (s.takeFlit h m l f).takeEarly h m k

/-- A good DATA flit (R389, R390): the next number is taken, a later one is held, an earlier one is a copy. -/
def State.sequenceFlit (s : State) (h m lane : Nat) (f : Flit) : State :=
  let p := s.port h m
  if f.seq = p.rxData.expected then
    let s := s.updPort h m fun p => { p with rxData := { p.rxData with expected := p.rxData.expected + 1, discard := false } }
    (s.takeFlit h m lane f).takeEarly h m 64
  else if seqLt f.seq p.rxData.expected || p.rxData.discard || 64 ≤ p.rxData.early.length ||
      (p.rxData.early.any fun e => e.2.seq == f.seq) || 64 ≤ p.rxData.early.length + (p.prioEarly.filter fun e => e.1.newFlit).length then s
  else s.updPort h m fun p => { p with rxData := { p.rxData with early := p.rxData.early ++ [(lane, f)] } }

/-- Count what the FEC decoder did for a flit (R473). -/
def State.countFec (s : State) (h : Nat) (f : Flit) : State :=
  (s.hubDross h 0x10 (fecFixed f)).hubDross h 0x11 (fecLost f)

/-- A relayed flit that proves bad after its forwarding has begun goes out stomped (R386, R400). -/
def State.stompRelay (s : State) (h m lane : Nat) (f : Flit) : State :=
  let p := s.port h m
  match p.rx.find? fun r => r.id == f.stream && !r.complete with
  | some { bound := .relay q id, refusing := none, .. } =>
    if f.seq ≠ p.rxData.expected || !s.relayReady q id lane || (s.port (q / 2) (q % 2)).stomp.isSome then s
    else s.updPort (q / 2) (q % 2) fun o =>
      let n := o.data.next
      let e := o.emit lane 1 n id f.body
      let bad := { e.1 with crc := e.1.crc ^^^ 0xFFFFFFFF }
      { e.2 with line := o.line ++ [(lane, bad)], data := { e.2.data with next := n + 1 }, stomp := some (lane, n, id) }
  | _ => s

/-- MTYPE of each message of a PRIO flit's body (R398). -/
def prioTypes (b : List Byte) : List Nat := (List.range (b.length / 64)).map fun i => (lget 0 b (64 * i + 7)).toNat

/-- A PRIO flit as such (R389, R398): its messages of known types come as commands of their own; those of reserved types are discarded,
and each counts as a bad flit. -/
def State.prioFlit (s : State) (h m : Nat) (f : Flit) : State :=
  let p := s.port h m
  let bad := ((prioTypes f.body).filter fun t => t = 0 || 8 < t).length
  if f.seq ≠ p.rxPrio.expected || bad = 0 then s
  else
    let s := s.hubDross h 0x12 bad
    if bad < (prioTypes f.body).length then s else s.updPort h m fun p => p.takePrioSeq f.seq

/-- After a command at a port: what may be sent goes out, streams that may go on resume, and the other lanes idle (R387). -/
def State.linkAfter (s : State) (h m line : Nat) : State := ((s.pumpPort h m).resumeRx).updPort h m (Port.idle line)

/-- DATA_FLIT (R386, R389, R390, R392): any flit that comes. A bad one asks for a replay of the class that its TYPE names (DESIGN
CHOICE: a header that failed its check may name another), an IDLE or CTRL flit of none. -/
def execDataFlit (a : PortAt) (lane : Fin 8) (f : Flit) (s : State) : Out :=
  let h := a.hub.val
  let m := a.port.val
  let line := (s.port h m).line.length
  .next (if !(s.port h m).up then s
    else
      let s := s.countFec h f
      match flitCheck f with
      | .bad =>
        let s := s.hubDross h 0x12 1
        let s := if f.type = 1 then (s.stompRelay h m lane.val f).updPort h m fun p => p.askReplay false
          else if f.type = 2 then s.updPort h m fun p => p.askReplay true else s
        s.updPort h m (Port.idle line)
      | .reserved => s.hubDross h 0x12 1
      | .stomped => s
      | .good =>
        let s := s.updPort h m fun p => p.takeAck f.ackc f.ack
        let s := if f.type = 1 then s.sequenceFlit h m lane.val f else if f.type = 2 then s.prioFlit h m f else s
        s.linkAfter h m line)

/-- IDLE (R385 to R387): it carries an acknowledgement only. A bad one is counted and asks for no replay: it has no class. -/
def execIdle (a : PortAt) (f : Flit) (s : State) : Out :=
  let h := a.hub.val
  let m := a.port.val
  let line := (s.port h m).line.length
  .next (if !(s.port h m).up then s
    else
      let s := s.countFec h f
      match flitCheck f with
      | .good => (s.updPort h m fun p => p.takeAck f.ackc f.ack).linkAfter h m line
      | .stomped => s
      | .bad => s.hubDross h 0x12 1
      | .reserved => s.hubDross h 0x12 1)

/-- LINK_REPLAY (R390, R391). -/
def execLinkReplay (a : PortAt) (prio : Bool) (q : BitVec 24) (s : State) : Out :=
  let h := a.hub.val
  let m := a.port.val
  let line := (s.port h m).line.length
  .next (if !(s.port h m).up then s else (s.replayLink h m prio q).updPort h m (Port.idle line))

/-- REPLAY_GAP_TIMEOUT (R390): a gap in the class that 2 us did not close. -/
def execReplayGapTimeout (a : PortAt) (prio : Bool) (s : State) : Out :=
  let h := a.hub.val
  let m := a.port.val
  let p := s.port h m
  .next (if !p.up || (if prio then p.prioEarly = [] else p.rxData.early = []) then s
    else s.updPort h m fun p => p.askReplay prio)

/-- LINK_ACK_TIMEOUT (R391): replay from the oldest unacknowledged flit. -/
def execLinkAckTimeout (a : PortAt) (prio : Bool) (s : State) : Out :=
  let h := a.hub.val
  let m := a.port.val
  let p := s.port h m
  .next (if !p.up then s
    else
      let held := if prio then p.prio.held else p.data.held.filter fun x => !x.acked
      match held with
      | [] => s
      | x :: _ => s.replayLink h m prio x.flit.seq)

/-! ### Credit and refusal -/

/-- Change a stream being sent. -/
def Port.updTx (p : Port) (id : BitVec 12) (g : TxStream → TxStream) : Port :=
  { p with tx := p.tx.map fun t => if t.id = id then g t else t }

/-- CREDIT (R395, R397): the delivered count of a stream. -/
def execCredit (a : PortAt) (stream : BitVec 12) (delivered : Nat) (s : State) : Out :=
  let h := a.hub.val
  let m := a.port.val
  .next (if !(s.port h m).up then s
    else
      let line := (s.port h m).line.length
      (s.updPort h m fun p => (p.updTx stream fun t => { t with delivered := max t.delivered (min t.sent delivered) }).release).linkAfter h m line)

/-- CREDIT_REPORT_TIMER (R395): report what is delivered and not yet reported. -/
def execCreditReportTimer (a : PortAt) (stream : BitVec 12) (s : State) : Out :=
  let h := a.hub.val
  let m := a.port.val
  .next (if !(s.port h m).up then s
    else s.updPort h m fun p => match p.rx.find? fun r => r.id == stream with
      | none => p
      | some r =>
        let p := if r.complete then { p with rx := p.rx.filter fun x => x.id != stream } else p.setRx { r with reported := r.delivered }
        if r.reported < r.delivered then p.control (.credit stream r.delivered) else p)

/-- REFUSE (R396): the far end discards the stream from a flit on, until it resumes. -/
def execRefuse (a : PortAt) (stream : BitVec 12) (offset : Nat) (s : State) : Out :=
  let h := a.hub.val
  let m := a.port.val
  let line := (s.port h m).line.length
  .next (if !(s.port h m).up then s
    else
      let s := s.updPort h m fun p =>
        (p.updTx stream fun t => { t with stopped := true, sent := min t.sent offset, delivered := max t.delivered (min t.sent offset) }).release
      s.linkAfter h m line)

/-- Read the bodies of a stream's flits that the far-link buffer holds acknowledged, for sending them again (R245, R396). -/
def State.rereadTx (s : State) (h m : Nat) (id : BitVec 12) : State :=
  ((s.port h m).data.held.filter fun x => x.acked && x.flit.stream == id).foldl (fun s x =>
    match s.agentRead h 0x5 (s.flitAt h m x.slot) x.flit.body.length m with
    | (none, s) => s
    | (some b, s) => s.updPort h m fun p => p.updTx id fun t => { t with bodies := lset t.bodies x.idx b }) s

/-- LINK_RESUME (R396): the stream is sent again from the refused flit, under new numbers. -/
def execLinkResume (a : PortAt) (stream : BitVec 12) (offset : Nat) (s : State) : Out :=
  let h := a.hub.val
  let m := a.port.val
  .next (if !(s.port h m).up then s
    else
      let line := (s.port h m).line.length
      ((s.rereadTx h m stream).updPort h m fun p => p.updTx stream fun t =>
        { t with stopped := false, sent := min t.bodies.length offset }).linkAfter h m line)

end Sys2Proof.Machine
end

