-- ==== Sys2Proof/Machine/HubItems.lean ====
section
/-! DEFINITION. Hub streams: LADLE (R359 to R361, R363), PORT_SEND and PORT_RECV (R403, R404, R408), CKPT_SEND (R290, R365, R457),
TIER (R212, R285) and the delivery of N2 (R321, R363). -/
namespace Sys2Proof.Machine

/-! ### Sources and sinks -/

/-- The tag of the tagged range that holds a whole memory source (R361); none outside every tagged range. -/
def State.memTag (s : State) (h a len : Nat) : Option Tag :=
  ((s.tagRanges h).find? fun r => decide (r.2.1 ≤ a ∧ a + len ≤ r.2.1 + r.2.2)).map fun r => tget .empty (s.hub h).tags r.1

/-- The generation a write of the step, or of a rebuild, belongs to (R297, R461). -/
def State.writeGen (s : State) : Nat := match s.crown.openStep with | some o => o.step | none => s.crown.gen

/-- What a written bank adds (R278); in a rebuild, writes that would name bank 1 - CB name bank CB (R461). -/
def State.bankOut (s : State) (bank : Nat) : Nat := s.bankAdd (if s.crown.rebuild && bank = 2 then 1 else bank)

/-- Address of a hub item's memory side, at its execution (R272, R278, R287). -/
def State.itemAddr (s : State) (hd : Head) (i sel lit bank : Nat) : Nat :=
  wrap 42 ((s.selAddr sel lit : Int) + hd.addr i + bank)

/-- A stream an item sends on: its elements, its gauntlet entries, its bytes. -/
structure Flow where
  els : List Elem := []
  gaunt : List GEntry := []
  deriving DecidableEq, Repr

/-- What an item takes in: the elements of its endpoint once all are there, or its memory range (R360, R403); none where it
must wait or met an uncorrectable sector. -/
def State.intake (s : State) (h : Nat) (hd : Head) (i : Nat) (it : HubItem) : Option Flow × State :=
  let f := (Fmt.ofCode it.fmt).getD .f32
  if it.epIn ≠ 0xFFF then
    match s.takeElems h it.epIn it.elems with
    | none => (none, s)
    | some (els, s) => let g := s.takeGaunt h it.epIn ((i + 1) * it.elems); (some { els := els, gaunt := g.1 }, g.2)
  else
    let n := packedBytes f it.elems
    let a := s.itemAddr hd i it.sel it.addr (s.bankAdd it.bankSel)
    match s.agentRead h 0x3 a n with
    | (none, s) => (none, s)
    | (some b, s) => (some { els := withTag (s.memTag h a n) (toElems f false 1 it.elems b []) }, s)

/-- Whether a replay suppresses a write: it touches a tagged range (R465). -/
def State.suppressed (s : State) (h a len : Nat) : Bool :=
  s.tracing && (s.tagRanges h).any fun r => overlaps a len r.2.1 r.2.2

/-- Write a stream's bytes to memory: in a tagged range it sets the tag of R297. -/
def State.landBytes (s : State) (h a : Nat) (b : List Byte) : State :=
  if s.suppressed h a b.length then s else (s.agentWrite h a b).cover h a b.length s.writeGen

/-! ### Ladle -/

/-- Whether an item's endpoint holds all it takes in. -/
def State.inputReady (s : State) (h : Nat) (it : HubItem) : Bool :=
  it.epIn == 0xFFF || decide (it.elems ≤ ((s.hub h).ep it.epIn).data.length)

/-- A stream and its gauntlet sub-stream reach an endpoint. -/
def State.pushFlow (s : State) (h ep : Nat) (fl : Flow) : State :=
  (s.pushGaunt h ep ((s.hub h).ep ep).count fl.gaunt).pushElems h ep fl.els

/-- LADLE (R360, R361, R363): the same bits to every output, to memory, and to N2. -/
def execLadle (hb : Fin 8) (s : State) : Out :=
  let h := hb.val
  .next (match (s.hubWindow h 5).find? fun w => match w.item.body with
      | .ladle _ _ _ _ _ _ => s.inputReady h w.item
      | _ => false with
    | some { inst := n, head := hd, item := it } => match it.body with
      | .ladle wsel write wbank norm waddr outs =>
        match s.intake h hd n.i it with
        | (none, s) => s.updHub h fun x => x.stopList 5
        | (some fl, s) =>
          let f := (Fmt.ofCode it.fmt).getD .f32
          let b := streamBytes f fl.els
          let s := outs.foldl (fun s o => s.pushFlow o.1 o.2 fl) s
          let s := if write then s.landBytes h (s.itemAddr hd n.i wsel waddr (s.bankOut wbank)) b else s
          let s := if norm then s.updHub h fun x => { x with normQ := x.normQ ++ (fl.els.map Elem.bits).take 1 } else s
          (s.traceStream h (hubAgent h 5) b).hubItemDone h 5 n hd
      | _ => s
    | none => s)

/-- NORM_DELIVERY (R321, R363): N2 arrives; a second one is a fault. -/
def execNormDelivery (hb : Fin 8) (s : State) : Out :=
  let h := hb.val
  .next (match (s.hub h).normQ with
    | [] => s
    | v :: rest =>
      let s := s.updHub h fun x => { x with normQ := rest }
      if (s.hub h).n2.isSome then s.report (hubDie h) 0x14 [(64, s.stepNo), (3, h)]
      else s.updHub h fun x => { x with n2 := some v })

/-! ### Checkpoints -/

/-- Whether checkpoint bytes of a hub still wait for their PORT_SEND. -/
def State.ckptPending (s : State) (cls h : Nat) : Bool :=
  (s.ckptItems cls h).any fun x => ((s.hub h).ep x.2.epOut).data ≠ []

/-- Drop a checkpoint all of whose streams have gone (R23). -/
def State.ckptSettle (s : State) (h : Nat) : State :=
  match (s.hub h).ckpt with
  | [] => s
  | (_, cls, i) :: rest =>
    if (s.ckptItems cls h).length ≤ i && !s.ckptPending cls h then s.updHub h fun x => { x with ckpt := rest } else s

/-- CKPT_SEND (R290, R365, R457): the next committed range of the checkpoint streams to its PORT_SEND. An uncorrectable sector stops the
checkpoint (R445). -/
def execCkptSend (hb : Fin 8) (s : State) : Out :=
  let h := hb.val
  .next (match (s.hub h).ckpt with
    | [] => s
    | (k, cls, i) :: rest =>
      match (s.ckptItems cls h)[i]? with
      | none => s.ckptSettle h
      | some (hd, it) =>
        let a := s.itemAddr hd 0 it.sel it.addr (k % 2 * s.bankSpan)
        let s := s.updHub h fun x => { x with ckpt := (k, cls, i + 1) :: rest }
        match s.agentRead h 0x3 a it.elems with
        | (none, s) => s.updHub h fun x => { x with ckpt := [] }
        | (some b, s) =>
          let els := withTag (s.memTag h a it.elems) (b.map fun v => { bits := v.setWidth 64 })
          s.updHub h fun x => let e := x.ep it.epOut; x.setEp it.epOut { e with data := e.data ++ els })

/-! ### Ports -/

/-- Send one stream of a PORT_SEND item from its own list's port (R402, R403, R408). -/
def State.sendItem (s : State) (h m p : Nat) (it : HubItem) (op kind step off : Nat) (fl : Flow) : State :=
  match it.body with
  | .portSend dstHub _ gaunt win =>
    let f := (Fmt.ofCode it.fmt).getD .f32
    let peer := (s.sel64 it.peerSel it.peer).toNat % 2048
    let x : StreamHead := { step := step, kind := kind, dst := peer, hub := dstHub, fmt := it.fmt, op := op
                            elems := fl.els.length, win := win, offset := off }
    if !(s.wire h m).1 then s.streamFault h 6 op peer p
    else
      let b := streamBytes f fl.els
      let s := s.sendStream h m x b (lastTag fl.els)
      let s := if gaunt then s.sendGaunt h m x (fl.els.any fun e => e.scale.isSome) fl.gaunt else s
      s.traceStream h (hubAgent h (3 + m)) b
  | _ => s

/-- The checkpoint stream that waits at a port: position of its PORT_SEND, the item, the offset and the generation. -/
def State.ckptSendAt (s : State) (h m : Nat) : Option (Nat × HubItem × Nat × Nat × Nat) :=
  match (s.hub h).ckpt with
  | [] => none
  | (k, cls, _) :: _ =>
    (lget [] (s.hubMouldOf cls h).lists (3 + m)).zipIdx.findSome? fun e => match e.1.body? with
      | none => none
      | some it => match it.body with
        | .portSend _ true _ _ =>
          match (s.ckptItems cls h).find? fun x => x.2.epOut == it.epIn with
          | some (_, src) => match src.body with
            | .ckptSend off => if decide (src.elems ≤ ((s.hub h).ep it.epIn).data.length) then some (e.2, it, off, k, src.elems) else none
            | _ => none
          | none => none
        | _ => none

/-- PORT_SEND (R403): the first item of the port's list that has its data, and before it a checkpoint stream that waits. A port that is
not connected is a fault that stops the list (R402, R445). -/
def execPortSend (a : PortAt) (s : State) : Out :=
  let h := a.hub.val
  let m := a.port.val
  let l := 3 + m
  let ready := (s.port h m).up || !(s.wire h m).1
  .next (if !ready then s
    else match s.ckptSendAt h m with
      | some (p, it, off, k, n) =>
        match s.takeElems h it.epIn n with
        | none => s
        | some (els, s) => (s.sendItem h m p it ((s.sel64 0 it.op).toNat % 2 ^ 32) 1 k off { els := els }).ckptSettle h
      | none => match (s.hubWindow h l).find? fun w => match w.item.body with
          | .portSend _ _ _ _ => s.inputReady h w.item
          | _ => false with
        | none => s
        | some { inst := n, head := hd, item := it } =>
          match s.intake h hd n.i it with
          | (none, s) => s.updHub h fun x => x.stopList l
          | (some fl, s) =>
            if !(s.wire h m).1 then
              (s.streamFault h 6 (s.hubOp hd n.i it) ((s.sel64 it.peerSel it.peer).toNat % 2048) n.pos).updHub h fun x => x.stopList l
            else (s.sendItem h m n.pos it (s.hubOp hd n.i it) (if s.crown.rebuild then 3 else 0) s.writeGen 0 fl).hubItemDone h l n hd)

/-- The oldest stream bound to a hub's PORT_RECV that is not over, by kind, sender and operation (R394, R404): the port it comes in on,
whichever that is. -/
def State.rxFor (s : State) (h kind src op : Nat) : Option (Nat × RxStream) :=
  (List.range 16).findSome? fun q => ((s.port (q / 2) (q % 2)).rx.find? fun r =>
    let x := StreamHead.decode r.head
    r.bound == .here && !r.complete && x.kind == kind && x.hub == h && x.src == src && x.op == op).map fun r => (q, r)

/-- What a PORT_RECV has before it: its stream, and its gauntlet sub-stream where one accompanies it. -/
def State.arrived (s : State) (h : Nat) (it : HubItem) (op : Nat) (gauntIn : Bool) : Option ((Nat × RxStream) × Option (Nat × RxStream)) :=
  let peer := (s.sel64 it.peerSel it.peer).toNat % 2048
  (s.rxFor h (if s.crown.rebuild then 3 else 0) peer op).map fun r => (r, if gauntIn then s.rxFor h 2 peer op else none)

/-- Elements of a stream of n that the first k of its payload bytes hold whole (R35, R39): of a scaled stream that is not S16 all, at
its end. -/
def elemsIn (f : Fmt) (n total k : Nat) : Nat :=
  if total ≤ k then n
  else if total = packedBytes f n then min n (8 * k / f.width)
  else if f = .f16 then min n (256 * (k / 513) + (k % 513 - 1) / 2)
  else 0

/-- Pass the entries of a gauntlet sub-stream that have come on to the endpoint (R353, R404, R408); `base` counts the elements delivered
there before the stream. The answer says whether all of it has come. -/
def State.recvGaunt (s : State) (h ep base : Nat) (pass : Bool) (q : Nat) (r : RxStream) : Bool × State :=
  let b := r.bytes ++ r.held.flatten
  let p := streamParts b
  let k := p.1.length / 8
  let bad := match p.2 with | some tr => !pcrcOk p.1 tr | none => false
  if bad then (false, (s.pcrcFault (StreamHead.decode r.head)).updPort (q / 2) (q % 2) fun o => o.setRx { r with bound := .dropped, held := [] })
  else
    let s := if pass then s.pushGaunt h ep base ((gEntries k p.1).drop r.passed) else s
    (p.2.isSome, s.updPort (q / 2) (q % 2) fun o => o.deliverRx { r with bytes := b, held := [], passed := k } r.held.length)

/-- Pass the elements of a stream that have come on to the endpoint, to memory, or both (R395, R404). Its last element waits for the
trailer, which holds the tag (DESIGN CHOICE). `all` says that every gauntlet entry has come, or that there are none. The answer says
whether the whole stream has passed. -/
def State.recvMain (s : State) (h : Nat) (it : HubItem) (addr disp : Nat) (all : Bool) (q : Nat) (r : RxStream) : Bool × State :=
  let f := (Fmt.ofCode it.fmt).getD .f32
  let x := StreamHead.decode r.head
  let was := (streamParts r.bytes).1.length
  let b := r.bytes ++ r.held.flatten
  let p := streamParts b
  let bad := match p.2 with | some tr => !pcrcOk p.1 tr | none => false
  if bad then (false, (s.pcrcFault x).updPort (q / 2) (q % 2) fun o => o.setRx { r with bound := .dropped, held := [] })
  else
    let els := streamElems f it.elems (p.1 ++ List.replicate (x.bytes - p.1.length) 0)
    let k := if p.2.isSome then it.elems else min (it.elems - 1) (elemsIn f it.elems x.bytes p.1.length)
    let els := match p.2 with | some tr => withTag (trailerTag tr) els | none => els
    let s := if disp ≠ 1 then
        (s.updHub h fun y => y.setEp it.epOut { y.ep it.epOut with src := some x.src }).pushElems h it.epOut ((els.take k).drop r.passed) all
      else s
    let s := if disp ≠ 0 && p.1.length ≠ was then s.landBytes h (addr + was) (p.1.drop was) else s
    (p.2.isSome, s.updPort (q / 2) (q % 2) fun o => o.deliverRx { r with bytes := b, held := [], passed := k } r.held.length)

/-- A stream is over at its PORT_RECV. -/
def State.closeRx (s : State) (q : Nat) (id : BitVec 12) : State :=
  s.updPort (q / 2) (q % 2) fun p => { p with rx := p.rx.map fun r => if r.id = id then { r with complete := true } else r }

/-- One pass of a PORT_RECV (R394 to R396, R404): what has come of its stream is delivered, or refused where its endpoint gives no credit;
once all of it has passed, and its gauntlet sub-stream with it, the item is done. -/
def State.recvPass (s : State) (h l : Nat) (w : HubAt) (disp : Nat) (gauntIn : Bool) (main : Nat × RxStream) (ga : Option (Nat × RxStream)) :
    State :=
  let it := w.item
  let q := main.1
  let r := main.2
  if r.refusing.isSome then s.resumeRx
  else if disp ≠ 1 && !s.credit h it.epOut then s.updPort (q / 2) (q % 2) fun p => p.refuseRx r
  else
    let base := ((s.hub h).ep it.epOut).count - r.passed
    let g := match ga with | some x => s.recvGaunt h it.epOut base (disp ≠ 1) x.1 x.2 | none => (!gauntIn, s)
    let m := g.2.recvMain h it (g.2.itemAddr w.head w.inst.i it.sel it.addr (g.2.bankOut it.bankSel)) disp g.1 q r
    if !g.1 || !m.1 then m.2
    else
      let s := match ga with | some x => (m.2.closeRx q r.id).closeRx x.1 x.2.id | none => m.2.closeRx q r.id
      (s.traceStream h (hubAgent h l) (streamParts (r.bytes ++ r.held.flatten)).1).hubItemDone h l w.inst w.head

/-- Whether a stream has something that its PORT_RECV has not passed on. -/
def RxStream.waits (r : RxStream) : Bool := r.held ≠ [] || r.refusing.isSome

/-- PORT_RECV (R404): the first item of the port's list of whose stream something has come. -/
def execPortRecv (a : PortAt) (s : State) : Out :=
  let h := a.hub.val
  let l := 3 + a.port.val
  let got : Option (HubAt × Nat × Bool × (Nat × RxStream) × Option (Nat × RxStream)) :=
    (s.hubWindow h l).findSome? fun w => match w.item.body with
      | .portRecv disp g => (s.arrived h w.item (s.hubOp w.head w.inst.i w.item) g).bind fun x =>
          if x.1.2.waits || x.2.any fun y => y.2.waits then some (w, disp, g, x.1, x.2) else none
      | _ => none
  .next (match got with
    | none => s
    | some (w, disp, g, main, ga) => s.recvPass h l w disp g main ga)

/-! ### Tier streams -/

/-- TIER (R212, R285): moves a range between the tiers of the hub. The spec gives the item no words for its destination, so
the place is the implementation's function of the words. -/
def execTier (hb : Fin 8) (s : State) : Out :=
  let h := hb.val
  .next (match (s.hubWindow h 5).find? fun w => match w.item.body with | .tier _ => true | _ => false with
    | none => s
    | some { inst := n, head := hd, item := it } => match it.body with
      | .tier raw =>
        let len := packedBytes ((Fmt.ofCode it.fmt).getD .f32) it.elems
        let dst := Config.tierDest raw.1 raw.2.1 raw.2.2 % 2 ^ 42
        match s.agentRead h 0x3 (s.itemAddr hd n.i it.sel it.addr (s.bankAdd it.bankSel)) len with
        | (none, s) => s.updHub h fun x => x.stopList 5
        | (some b, s) =>
          let s := if s.memOk dst && s.memOk (dst + len - 1) && !s.suppressed h dst len then s.agentWrite h dst b else s
          s.hubItemDone h 5 n hd
      | _ => s)

end Sys2Proof.Machine
end

