-- ==== Sys2Proof/Machine/Reduction.lean ====
section
/-! DEFINITION. Reduction nodes (R334 to R358): TREE_NODE, its elements on both paths, backed slots chunk by chunk, and their
records. -/
namespace Sys2Proof.Machine

/-! ### Slots -/

/-- The value of a slot's element by its wire code (R336, R340). -/
def wireNum (wire : Nat) (e : Elem) : Num :=
  match wire with
  | 0 => decode .f32 e.bits.toNat
  | 1 => decode .bf16 e.bits.toNat
  | 2 => s16Decode (e.scale.getD 0).toNat e.bits.toNat
  | _ => decode .f64 e.bits.toNat

/-- Elements of a chunk (R348). -/
def chunkLen (wire : Nat) : Nat := if wire = 0 then 16384 else 32768

/-- The next element of a slot, when it is there (R339, R348). -/
def State.slotElem (s : State) (h : Nat) (n : NodeRun) (k : Nat) (z : NodeSlot) : Option Elem :=
  if z.bkp then
    (n.chunks.find? fun c => c.slot == k && c.chunk == n.next / chunkLen z.wire).map fun c => lget {} c.used (n.next % chunkLen z.wire)
  else ((s.hub h).ep z.primary).data.head?

/-- The endpoint whose gauntlet entries go with the copy of a slot in use (R353). -/
def slotGauntEp (n : NodeRun) (k : Nat) (z : NodeSlot) : Nat :=
  if z.bkp && (n.chunks.any fun c => c.slot == k && c.chunk == n.next / chunkLen z.wire && c.fromBackup) then z.backup else z.primary

/-- Whether the gauntlet samples element e of a stream (R67, R352). -/
def State.sampled (s : State) (n : NodeRun) (e : Nat) : Bool :=
  let t := s.mouldSet.step.gauntletT
  n.w.gaunt && t != 0 && decide (laneSlice s.seed 0x06 s.stepNo 0 n.op (e / 4) (e % 4) < t)

/-- Whether an entry at an endpoint goes with the stream of this execution of a node: each execution takes ELEMS elements (R339). -/
def NodeRun.owns (n : NodeRun) (g : Nat × GEntry) : Bool := decide (n.i * n.elems ≤ g.1) && decide (g.1 < (n.i + 1) * n.elems)

/-- The gauntlet entries of a slot in this execution, of the copy in use (R353): of a backed slot none for the chunks before, which
the other copy may have left behind. -/
def State.slotEntries (s : State) (h : Nat) (n : NodeRun) (k : Nat) (z : NodeSlot) : List GEntry :=
  let from' := if z.bkp then n.next / chunkLen z.wire * chunkLen z.wire else 0
  ((((s.hub h).ep (slotGauntEp n k z)).gaunt.filter n.owns).map Prod.snd).filter fun g => decide (from' ≤ g.elem)

/-- Whether a slot's gauntlet entry for element e is there, passed, or known missing. -/
def State.entryKnown (s : State) (h : Nat) (n : NodeRun) (k : Nat) (z : NodeSlot) : Bool :=
  z.leaf || !s.sampled n n.next || decide (n.i * n.elems + n.next < ((s.hub h).ep (slotGauntEp n k z)).known) ||
    (s.slotEntries h n k z).any fun g => decide (n.next ≤ g.elem)

/-- Drop the gauntlet entries of an execution at an endpoint for elements up to the next one. -/
def NodeRun.dropEntries (n : NodeRun) (e : Endpoint) : Endpoint :=
  { e with gaunt := e.gaunt.filter fun g => !(n.owns g && decide (g.2.elem ≤ n.next)) }

/-- The gauntlet of one slot at an element (R354, R355): the second path's value, and the entries that are missing or surplus. -/
def State.slotSecond (s : State) (h : Nat) (n : NodeRun) (k : Nat) (z : NodeSlot) (main : Num) : Num × List (Nat × Nat × Nat × Nat) :=
  let e := n.next
  if z.leaf then (main, [])
  else
    let g := (s.slotEntries h n k z).filter fun x => decide (x.elem ≤ e)
    let low := g.filter fun x => decide (x.elem < e)
    let same := g.filter fun x => x.elem == e
    let surplus : List GEntry → List (Nat × Nat × Nat × Nat) := fun l => l.map fun x => (k, 1, x.elem, x.value.toNat)
    if s.sampled n e then
      match same with
      | [] => (main, surplus low ++ [(k, 0, e, 0)])
      | x :: more => (wireNum z.wire { bits := x.value.setWidth 64, scale := some x.scale }, surplus low ++ surplus more)
    else (main, surplus low ++ surplus same)

/-! ### Sums -/

/-- The exact sum of R340, and whether it raises invalid. -/
def nodeSum (vs : List Num) : Num × Bool :=
  let pos := vs.any fun v => v == .inf false
  let neg := vs.any fun v => v == .inf true
  if pos && neg then (.nan, true)
  else if vs.any fun v => v == .nan then (.nan, false)
  else if pos then (.inf false, false)
  else if neg then (.inf true, false)
  else
    let q := vs.foldl (fun a v => (a.add v).1) Num.zero
    (if q.isZero then Num.zero else q, false)

/-- The NORM64 sum in slot order (R343). -/
def normSum : List Num → Num
  | [] => Num.zero
  | q :: t => t.foldl (fun a v => decode .f64 (fpAdd .f64 a v).bits) q

/-- The origin condition of an element before its rounding (R356): cause and slot. -/
def originOf (slots : List NodeSlot) (vs : List Num) (invalid : Bool) : Option (Nat × Nat) :=
  let bad := fun (v : Num) => match v with | .nan => true | .inf _ => true | .fin _ _ _ => false
  match ((slots.zip vs).zipIdx.find? fun x => x.1.1.leaf && bad x.1.2) with
  | some x => some (if x.1.2 = .nan then 0 else 1, x.2)
  | none =>
    if invalid then some (3, ((vs.zipIdx.find? fun v => v.1 = .inf false || v.1 = .inf true).map Prod.snd).getD 0) else none

/-- Rounding slice of element e at a node (R341). -/
def State.hopRnd (s : State) (n : NodeRun) (e : Nat) : Rnd := .sr (laneSlice s.seed 0x03 s.stepNo n.node.toNat n.op e 0)

/-- A block of sums in the output's wire form (R341): scale byte where it has one, main path, second path. first is the number of
the block's first element. -/
def State.roundBlock (s : State) (n : NodeRun) (first : Nat) : Option Byte × List (Rounded × Rounded) :=
  let l := n.block.zipIdx
  let one := fun (f : Fmt) => l.map fun b => (encode f (s.hopRnd n (first + b.2)) true b.1.main, encode f (s.hopRnd n (first + b.2)) true b.1.second)
  match n.w.outWire with
  | 0 => (none, one .f32)
  | 1 => (none, one .bf16)
  | 2 =>
    let r := s16Encode (l.map fun b => (b.1.main, s.hopRnd n (first + b.2)))
    (some (BitVec.ofNat 8 r.1), (l.zip r.2).map fun b =>
      (b.2, encode .f16 (s.hopRnd n (first + b.1.2)) true (b.1.1.second.scale (127 - (r.1 : Int)))))
  | _ => (none, l.map fun b => ({ bits := (roundNear .f64 b.1.main).bits }, {}))

/-! ### Records -/

/-- First fields of a check record (R358). -/
def State.checkHead (s : State) (kind h : Nat) (n : NodeRun) : List (Nat × Nat) :=
  [(2, kind), (64, s.stepNo), (3, h), (32, n.op.toNat), (16, n.node.toNat), (32, n.w.shard)]

/-- Write the origin record of a node (R356, R358). -/
def State.originRecord (s : State) (h : Nat) (n : NodeRun) (e cause slot : Nat) : State :=
  let tile := if cause < 2 then (lget {} n.w.slots slot).ltile else 0x3F
  let s := (s.hubDross h 0x17 1).updHub h fun x => { x with origin := true }
  s.record (hubDie h) 0x07
    (s.checkHead 0 h n ++ [(32, e), (3, slot), (2, cause), (11, s.crown.rankNow.toNat), (6, tile)])

/-- Raise a gauntlet fault with its record (R355, R358). -/
def State.gauntFault (s : State) (h : Nat) (rec : List (Nat × Nat)) : State :=
  ((s.hubDross h 0x14 1).updHub h fun x => { x with gauntBad := true }).report (hubDie h) 0x0F rec (some 0x07)

/-- MAIN of a gauntlet entry record (R358): the output bits of the element, 0 at or above ELEMS. outs are the bits sent, those of the block
that is rounded now among them: an entry is missing or surplus only once the node has come to its element (R355). -/
def entryMain (elems e : Nat) (outs : List W64) : Nat := if elems ≤ e then 0 else (lget 0 outs e).toNat % 2 ^ 32

/-! ### Commands -/

/-- Backed slots of a node. -/
def NodeWords.backed (w : NodeWords) : Nat := (w.slots.filter NodeSlot.bkp).length

/-- Chunk buffers in use on a hub (R350). -/
def Hub.chunkBuffers (x : Hub) : Nat := ((x.nodes.filter fun n => !n.done).map fun n => 4 * n.w.backed).sum

/-- TREE_NODE (R335, R350): the next node of the REDUCE list starts, when its chunk buffers are free. -/
def execTreeNode (hb : Fin 8) (s : State) : Out :=
  let h := hb.val
  let x := s.hub h
  .next (match s.hubWindow h 1 with
    | [] => s
    | { inst := p, head := hd, item := it } :: _ => match it.body with
      | .node w =>
        if 64 ≤ (x.nodes.filter fun n => !n.done).length || decide (256 < x.chunkBuffers + 4 * w.backed) then s
        else
          let n : NodeRun :=
            { pos := p.pos, i := p.i, op := BitVec.ofNat 32 (s.hubOp hd p.i it), elems := it.elems, w := w, epOut := it.epOut
              node := BitVec.ofNat 16 (w.node + (s.select it.peerSel).toNat), sig := hd.sig }
          (s.updHub h fun x => { x with nodes := x.nodes ++ [n] }).markDone h 1 p
      | _ => s)

/-- Replace a node of a hub. -/
def State.setNode (s : State) (h index : Nat) (n : NodeRun) : State := s.updHub h fun x => { x with nodes := lset x.nodes index n }

/-- Send a rounded block to the node's output (R339, R345, R353). -/
def State.emitBlock (s : State) (n : NodeRun) (first : Nat) (scale : Option Byte) (bits : List (Rounded × Rounded)) : State :=
  let out := n.w.outHub
  let entries := if n.w.outWire = 0 || n.w.norm then [] else
    bits.zipIdx.filterMap fun b => if s.sampled n (first + b.2) then
      some ({ elem := first + b.2, scale := scale.getD 0, value := BitVec.ofNat 16 b.1.2.bits } : GEntry) else none
  let s := s.pushGaunt out n.epOut (((s.hub out).ep n.epOut).count - first) entries
  s.pushElems out n.epOut (bits.map fun b => { bits := BitVec.ofNat 64 b.1.bits, scale := scale })

/-- Whether another execution of a node's item has raised a mark in the step (R344). -/
def Hub.marked (x : Hub) (n : NodeRun) (mark : NodeRun → Bool) : Bool := mark n || x.nodes.any fun m => m.pos == n.pos && mark m

/-- Whether a node has written its origin record for the stream in the step (R356). -/
def Hub.originSent (x : Hub) (n : NodeRun) : Bool := n.origin || x.nodes.any fun m => m.pos == n.pos && m.op == n.op && m.origin

/-- Round and send the sums a node holds, with its conditions, records and comparisons (R341, R344, R355, R356). -/
def State.flushNode (s : State) (h index : Nat) (n : NodeRun) : State :=
  let first := n.next - n.block.length
  let r := s.roundBlock n first
  let l := n.block.zip r.2
  let fin := fun (v : Num) => match v with | .fin _ _ _ => true | _ => false
  let ovf := l.any fun b => b.2.1.ovf && fin b.1.main
  let s := if ovf && !(s.hub h).marked n NodeRun.overflow then s.hubDross h 0x19 1 else s
  let n := { n with overflow := n.overflow || ovf }
  let origin := l.zipIdx.findSome? fun b => match b.1.1.origin with
    | some o => some (first + b.2, o)
    | none => if b.1.2.1.ovf && fin b.1.1.main then some (first + b.2, 2, 0) else none
  let s := match origin with
    | some (e, c, k) => if (s.hub h).originSent n || n.w.norm then s else s.originRecord h n e c k
    | none => s
  let n := { n with origin := n.origin || (origin.isSome && !n.w.norm), outs := n.outs ++ r.2.map fun b => BitVec.ofNat 64 b.1.bits }
  match l.findSome? fun b => b.1.entries.head? with
  | some (k, c, e, v) =>
    (s.gauntFault h (s.checkHead 3 h n ++ [(32, e), (3, k), (2, c), (32, entryMain n.elems e n.outs), (32, v)])).setNode h index { n with stopped := true }
  | none =>
    match (if n.w.gcmp then l.zipIdx.find? fun b => s.sampled n (first + b.2) && b.1.2.1.bits != b.1.2.2.bits else none) with
    | some b =>
      (s.gauntFault h (s.checkHead 2 h n ++ [(32, first + b.2), (32, b.1.2.1.bits), (32, b.1.2.2.bits)])).setNode h index
        { n with stopped := true }
    | none =>
      let s := s.emitBlock n first r.1 r.2
      let done := n.next = n.elems
      let keep := n.chunks.filter fun c =>
        decide (n.next < (c.chunk + 1) * chunkLen (lget {} n.w.slots c.slot).wire)
      let s := s.setNode h index { n with block := [], chunks := keep, done := done }
      if done then s.hubItemSignal h n.sig else s

/-- Whether every earlier execution of a node's item in the step has taken its elements in: an execution takes none before (R339). -/
def Hub.firstOf (x : Hub) (n : NodeRun) : Bool := x.nodes.all fun m => m.pos != n.pos || decide (n.i ≤ m.i) || m.done

/-- Whether every earlier execution of a node's item has taken in its chunks of one copy of a slot (R348, R349). -/
def Hub.firstCopy (x : Hub) (n : NodeRun) (k copy len : Nat) : Bool :=
  x.nodes.all fun m => m.pos != n.pos || decide (n.i ≤ m.i) ||
    m.chunkDone.any fun d => d.1 == k && d.2.1 == copy && decide (m.elems ≤ d.2.2 * len)

/-- NODE_ELEMENT (R339 to R344, R353 to R356): the next element of a node, once every slot has delivered it and its output has credit. A
node with no elements completes. -/
def execNodeElement (hb : Fin 8) (index : Nat) (s : State) : Out :=
  let h := hb.val
  .next (match (s.hub h).nodes[index]? with
    | none => s
    | some n =>
      let slots := n.w.slots.zipIdx
      let els := slots.filterMap fun z => s.slotElem h n z.2 z.1
      if n.done || n.stopped || !(s.hub h).firstOf n then s
      else if n.elems ≤ n.next then (s.setNode h index { n with done := true }).hubItemSignal h n.sig
      else if els.length < slots.length ||
          !(slots.all fun z => s.entryKnown h n z.2 z.1) || !s.credit n.w.outHub n.epOut then s
      else
        let vs := (slots.zip els).map fun z => wireNum z.1.1.wire z.2
        let sec := (slots.zip vs).map fun z => s.slotSecond h n z.1.2 z.1.1 z.2
        let on := n.w.gaunt && s.mouldSet.step.gauntletT != 0
        let last := decide (n.next + 1 = n.elems)
        let left := if on && last then slots.flatMap fun z => if z.1.leaf then [] else
            ((s.slotEntries h n z.2 z.1).filter fun g => decide (n.next < g.elem)).map fun g => (z.2, 1, g.elem, g.value.toNat)
          else []
        let q := nodeSum vs
        let b : BlockElem :=
          if n.w.norm then { main := normSum vs, second := normSum vs }
          else { main := q.1, second := if s.sampled n n.next then (nodeSum (sec.map fun x => x.1)).1 else q.1
                 origin := originOf n.w.slots vs q.2, entries := if on then sec.flatMap Prod.snd ++ left else [] }
        -- the invalid condition counts once for the item (R344)
        let s := if q.2 && !n.w.norm && !(s.hub h).marked n NodeRun.invalid then s.hubDross h 0x18 1 else s
        let s := slots.foldl (fun s z => s.updHub h fun x =>
          let p := x.ep z.1.primary
          if z.1.bkp then (x.setEp z.1.primary (n.dropEntries p)).setEp z.1.backup (n.dropEntries (x.ep z.1.backup))
          else x.setEp z.1.primary { n.dropEntries p with data := p.data.drop 1 }) s
        let n := { n with next := n.next + 1, block := n.block ++ [b], invalid := n.invalid || (q.2 && !n.w.norm) }
        if n.w.outWire = 2 && n.block.length < 256 && n.next < n.elems then s.setNode h index n
        else s.flushNode h index n)

/-- BACKUP_CHUNK (R348, R349): one copy of a backed slot's next chunk is complete: used if it is first, compared if the other has
not retired, else discarded and counted. -/
def execBackupChunk (hb : Fin 8) (index : Nat) (slot : Fin 8) (backup : Bool) (s : State) : Out :=
  let h := hb.val
  let k := slot.val
  .next (match (s.hub h).nodes[index]? with
    | none => s
    | some n => match n.w.slots[k]? with
      | none => s
      | some z =>
        let copy := b2n backup
        let c := ((n.chunkDone.find? fun d => d.1 == k && d.2.1 == copy).map fun d => d.2.2).getD 0
        let len := min (chunkLen z.wire) (n.elems - c * chunkLen z.wire)
        let emitted := n.next - n.block.length
        let full := decide (4 ≤ (n.chunks.filter fun x => x.slot == k).length)
        let known := n.chunks.find? fun x => x.slot == k && x.chunk == c
        let retired := decide (c * chunkLen z.wire + len ≤ emitted)
        if !z.bkp || n.stopped || len = 0 || !(s.hub h).firstCopy n k copy (chunkLen z.wire) || (full && known.isNone && !retired) then s
        else match s.takeElems h (if backup then z.backup else z.primary) len with
          | none => s
          | some (els, s) =>
            let n := { n with chunkDone := (n.chunkDone.filter fun d => !(d.1 == k && d.2.1 == copy)) ++ [(k, copy, c + 1)] }
            if retired then (s.updHub h fun x => { x with late := min 0xFFFF (x.late + 1) }).setNode h index n
            else match known with
              | none =>
                s.setNode h index { n with chunks := n.chunks ++ [{ slot := k, chunk := c, used := els, fromBackup := backup }] }
              | some u =>
                let same := (u.used.map fun e => (e.bits, e.scale)) == els.map fun e => (e.bits, e.scale)
                let mark := n.chunks.map fun x => if x.slot == k && x.chunk == c then { x with other := true } else x
                if same then s.setNode h index { n with chunks := mark }
                else
                  let rank := fun (ep : Nat) => (((s.hub h).ep ep).src).getD s.crown.rankNow.toNat
                  let rec' := s.checkHead 1 h n ++ [(16, c), (3, k), (11, rank z.primary), (11, rank z.backup)]
                  let s := (s.hubDross h 0x15 1).updHub h fun x => { x with backupBad := true }
                  (s.report (hubDie h) 0x0E rec' (some 0x07)).setNode h index { n with chunks := mark, stopped := true })

end Sys2Proof.Machine
end

