-- ==== Sys2Proof/Machine/Update.lean ====
section
/-! DEFINITION. The update engine (R308 to R331): UPDATE items, their elements, what ends them, and master digests. -/
namespace Sys2Proof.Machine

/-! ### Arithmetic -/

/-- binary32 one. -/
def oneF : W32 := 0x3F800000

/-- rn(a / b). -/
def rnDiv (a b : Num) : W32 := BitVec.ofNat 32 (fpDiv a b).bits

/-- The clip factor of R321 from N2. A NaN or negative N2 has no order with TAU, so its quotient is a NaN. -/
def clipFactor (tau : W32) (n2 : W64) : W32 :=
  match decode .f64 n2.toNat with
  | .nan => BitVec.ofNat 32 Fmt.f32.nan
  | .inf neg => if neg then BitVec.ofNat 32 Fmt.f32.nan else 0
  | .fin neg m e =>
    if m = 0 then oneF
    else if neg then BitVec.ofNat 32 Fmt.f32.nan
    else
      let q := sqrtSticky 200 m e
      let n := decode .f64 (roundNear .f64 (.fin false q.1 q.2)).bits
      if 0 ≤ (f32 tau).cmp n then oneF else rnDiv (f32 tau) n

/-- Entries of a learning-rate table (R322): START, ETA, DELTA. -/
def lrEntries : Nat → List Byte → List (Nat × W32 × W32)
  | 0, _ => []
  | k + 1, b => (leNat (b.take 8), BitVec.ofNat 32 (leNat ((b.drop 8).take 4)), BitVec.ofNat 32 (leNat ((b.drop 12).take 4))) ::
      lrEntries k (b.drop 16)

/-- First entry whose START does not exceed the one before it. -/
def lrDisorder (l : List (Nat × W32 × W32)) : Option Nat :=
  ((l.zip (l.drop 1)).zipIdx.find? fun x => decide (x.1.2.1 ≤ x.1.1.1)).map fun x => x.2 + 1

/-- The learning rate of step g (R322). -/
def lrEta (l : List (Nat × W32 × W32)) (g : Nat) : W32 :=
  match (l.filter fun e => decide (e.1 ≤ g)).getLast? with
  | none => 0
  | some (st, eta, delta) => rnAdd eta (rnMul delta (toF32 (Num.ofInt ((g : Int) - st))))

/-- u of SIGN-MOMENTUM (R325). -/
def signOf (m : W32) : W32 :=
  match f32 m with
  | .nan => BitVec.ofNat 32 Fmt.f32.nan
  | .inf s => if s then 0xBF800000 else oneF
  | .fin s k _ => if k = 0 then 0 else if s then 0xBF800000 else oneF

/-- What one element leaves of a recipe (R325, R326): direction, first moment, second moment. -/
def direction (n : UpdRun) (x m v r c : W32) : W32 × W32 × W32 :=
  let lin := rnAdd (rnMul n.w.beta1 m) (rnMul n.b1c x)
  let rsq := fun (a : W32) => BitVec.ofNat 32 (sfuRsq (f32 (rnAdd a n.w.eps))).bits
  match n.w.recipe with
  | 0 => let m' := rnAdd (rnMul n.w.beta1 m) x; (m', m', v)
  | 1 => (signOf lin, lin, v)
  | 2 =>
    let mm := if n.w.m1 then lin else x
    (rnMul mm (rsq (rnMul (rnMul r c) n.kappa)), lin, v)
  | _ =>
    let v' := rnAdd (rnMul n.w.beta2 v) (rnMul n.b2c (rnMul x x))
    (rnMul lin (rsq v'), lin, v')

/-- Whether a binary32 value is infinite or NaN. -/
def badF (w : W32) : Bool := match f32 w with | .nan => true | .inf _ => true | .fin _ _ _ => false

/-! ### Memory -/

/-- Read binary32 words for the update engine: none where one is uncorrectable (R245). -/
def State.readWords (s : State) (h : Nat) : List Nat → Option (List W32) × State
  | [] => (some [], s)
  | a :: t =>
    match s.agentRead h 0x2 a 4 with
    | (none, s) => (none, s)
    | (some b, s) => match s.readWords h t with
      | (none, s) => (none, s)
      | (some l, s) => (some (BitVec.ofNat 32 (leNat b) :: l), s)

/-- Write a piece of a range that an item writes in rising order up to `hi`, in bank 1 - CB (R309, R310); none of it in a replay
(R465). -/
def State.stateWrite (s : State) (h a hi : Nat) (b : List Byte) : State :=
  if s.suppressed h a b.length then s else (s.agentStream h a hi b).cover h a b.length s.writeGen

/-- What a read adds, and what a write adds (R309); in a rebuild both name bank CB. -/
def State.bankRd (s : State) : Nat := s.cb * s.bankSpan
def State.bankWr (s : State) : Nat := if s.crown.rebuild then s.cb * s.bankSpan else (1 - s.cb) * s.bankSpan

/-! ### Start -/

/-- The learning-rate table as it stands in memory (R322): the rate, or the entry that fails the check. -/
def State.learningRate (s : State) (h a : Nat) : Option (Except Nat W32) × State :=
  match s.agentRead h 0x2 a 8 with
  | (none, s) => (none, s)
  | (some b, s) =>
    let n := leNat b
    if n = 0 || 4096 < n then (some (.error 0), s)
    else match s.agentRead h 0x2 (a + 8) (16 * n) with
      | (none, s) => (none, s)
      | (some b, s) =>
        let l := lrEntries n b
        match lrDisorder l with
        | some e => (some (.error e), s)
        | none => (some (.ok (lrEta l s.stepNo)), s)

/-- Row statistics of the committed bank at the start of a FACTORED item (R326): kappa. -/
def State.factoredKappa (s : State) (h : Nat) (sec rows : Nat) (invR : W32) : Option W32 × State :=
  match s.agentRead h 0x2 (sec + s.bankRd) (4 * rows) with
  | (none, s) => (none, s)
  | (some b, s) =>
    let l := (unpackBits 32 rows (leNat b)).map (BitVec.ofNat 32)
    let mu := rnMul (l.foldl rnAdd 0) invR
    (some (if (f32 mu).isZero then 0 else rnDiv (f32 oneF) (f32 mu)), s)

/-- The loss scale S of an UPDATE item (R315, R318). -/
def State.lossScale (s : State) (w : UpdWords) : W32 := if w.lsSel = 0 then oneF else (s.select w.lsSel).setWidth 32

/-- Whether a loss scale is a positive, finite, normal binary32 (R318). -/
def scaleOk (w : W32) : Bool := !bit w.toNat 31 && decide (bits w.toNat 30 23 ≠ 0) && decide (bits w.toNat 30 23 ≠ 255)

/-- An UPDATE item as it starts, before its learning rate and statistics. -/
def State.newUpd (s : State) (h : Nat) (x : Inst) (hd : Head) (it : HubItem) (w : UpdWords) : UpdRun :=
  let i := x.i
  let at' := fun (x : Nat × Nat) => s.itemAddr hd i x.1 x.2 0
  let rows := if w.cols = 0 then 0 else it.elems / w.cols
  { pos := x.pos, w := w, elems := it.elems, fmt := it.fmt, epIn := it.epIn, epOut := it.epOut
    op := BitVec.ofNat 32 (s.hubOp hd i it), masters := at' (it.sel, it.addr), mom := at' w.mom, sec := at' w.sec, col := at' w.col
    wc := at' w.wc, nrm := at' w.nrm, rebuild := s.crown.rebuild, rho := rnDiv (f32 oneF) (f32 (s.lossScale w))
    clipF := if w.clip then clipFactor w.tau ((s.hub h).n2.getD 0) else oneF
    b1c := rnSub oneF w.beta1, b2c := rnSub oneF w.beta2
    invC := rnDiv (f32 oneF) (Num.ofInt w.cols), invR := rnDiv (f32 oneF) (Num.ofInt rows)
    ord := (s.hub h).updStarted, sig := hd.sig }

/-- Put a started item among those in progress. -/
def State.startUpd (s : State) (h : Nat) (p : Inst) (n : UpdRun) : State :=
  (s.updHub h fun x => { x with upds := x.upds ++ [n], updStarted := x.updStarted + 1 }).markDone h 2 p

/-- UPDATE (R315, R321, R322, R326): the next item of the UPDATE list starts, its learning rate resolved, once N2 is there if it
clips. A table that fails its check is the fault LR_TABLE, and the item takes in nothing. -/
def execUpdate (hb : Fin 8) (s : State) : Out :=
  let h := hb.val
  .next (match s.hubWindow h 2 with
    | [] => s
    | { inst := p, head := hd, item := it } :: _ => match it.body with
      | .update w =>
        let x := s.hub h
        if 64 ≤ x.upds.length || (w.clip && x.n2.isNone && !s.crown.rebuild) || (!s.crown.rebuild && !scaleOk (s.lossScale w)) then s
        else
          let n := s.newUpd h p hd it w
          if n.rebuild then s.startUpd h p n
          else match s.learningRate h (s.itemAddr hd p.i w.lrt.1 w.lrt.2 0) with
            | (none, s) => s.startUpd h p { n with stopped := true }
            | (some (.error e), s) =>
              (s.report (hubDie h) 0x18 [(64, s.stepNo), (3, h), (16, p.pos), (16, e)]).startUpd h p { n with stopped := true }
            | (some (.ok eta), s) =>
              if w.recipe ≠ 2 then s.startUpd h p { n with eta := eta }
              else match s.factoredKappa h n.sec (it.elems / w.cols) n.invR with
                | (none, s) => s.startUpd h p { n with stopped := true }
                | (some k, s) => s.startUpd h p { n with eta := eta, kappa := k }
      | _ => s)

/-! ### Elements -/

/-- Replace an item in progress. -/
def State.setUpd (s : State) (h index : Nat) (n : UpdRun) : State := s.updHub h fun x => { x with upds := lset x.upds index n }

/-- The working copy of a master (R324, R53): its rounding is nearest, or the class 0x05 slice. -/
def State.workCopy (s : State) (n : UpdRun) (i : Nat) (w : W32) : Rounded :=
  let f := (Fmt.ofCode n.fmt).getD .bf16
  encode f (if n.w.wcSr then .sr (laneSlice s.seed 0x05 s.writeGen 0 n.op (i / 4) (i % 4)) else .rne) n.w.wcOvf (f32 w)

/-- Write a working copy and send it on (R310, R315, R361). -/
def State.putCopy (s : State) (h : Nat) (n : UpdRun) (i : Nat) (c : Rounded) : State :=
  let k := ((Fmt.ofCode n.fmt).getD .bf16).width / 8
  let base := n.wc + s.bankWr
  let s := s.stateWrite h (base + k * i) (base + k * n.elems) (leBytes k c.bits)
  let last := decide (i + 1 = n.elems)
  let tag := if last then some (if n.rebuild then Tag.final s.writeGen else .prov s.writeGen) else none
  if n.epOut = 0xFFF then s else s.pushElems h n.epOut [{ bits := BitVec.ofNat 64 c.bits, tag := tag }]

/-- Whether step g compares master digests (R330). -/
def State.digestDue (s : State) (w : UpdWords) : Bool :=
  let k := s.mouldSet.step.digestEvery
  w.digN != 0 && k != 0 && s.stepNo % k == 0 && !s.tracing

/-- A digest mismatch (R331, R572). -/
def State.digestFault (s : State) (h peer : Nat) (op : W32) (own other : W64) : State :=
  ((s.hubDross h 0x16 1).updHub h fun x => { x with updDigestBad := true }).report (hubDie h) 0x10
    [(64, s.stepNo), (3, h), (32, op.toNat), (11, peer), (64, own.toNat), (64, other.toNat)]

/-- Send an item's digest to its peers and compare what they have sent (R331). -/
def State.sendDigest (s : State) (h : Nat) (n : UpdRun) : State :=
  let peers := ((n.w.digSlots.take n.w.digN).map fun k => (s.slot k).toNat % 2048).filter (· ≠ s.crown.rankNow.toNat)
  let s := s.updHub h fun x => { x with ownDig := x.ownDig ++ [(s.stepNo, n.op, n.digest)] }
  let s := peers.foldl (fun s r => s.sendPrio r s.stepNo (.digest { op := n.op, digest := n.digest })) s
  let came := (s.hub h).peerDig.filter fun d => d.2.1 == s.stepNo && d.2.2.1 == n.op
  let s := came.foldl (fun s d => if d.2.2.2 = n.digest then s else s.digestFault h d.1 n.op n.digest d.2.2.2) s
  let need := peers.filter fun r => !(came.any fun d => d.1 == r && d.2.2.2 == n.digest)
  s.updHub h fun x => { x with needDig := x.needDig ++ need.map fun r => (r, n.op) }

/-- Column statistics of a FACTORED item, after its last master (R326). -/
def State.columnStats (s : State) (h : Nat) (n : UpdRun) : Option Unit × State :=
  let base := n.col + s.bankWr
  (List.range n.w.cols).foldl (fun acc k => match acc.1 with
    | none => acc
    | some _ => match acc.2.readWords h [n.col + s.bankRd + 4 * k] with
      | (some [c], s) =>
        let v := rnAdd (rnMul n.w.beta2 c) (rnMul n.b2c (rnMul (tget 0 n.colAcc k) n.invR))
        (some (), s.stateWrite h (base + 4 * k) (base + 4 * n.w.cols) (leBytes 4 v.toNat))
      | (_, s) => (none, s)) (some (), s)

/-- What ends an item (R320, R326, R327, R330, R331, R357): column statistics, the norm partial, NONFINITE by policy, the digest,
the signal. -/
def State.endUpd (s : State) (h index : Nat) (n : UpdRun) : State :=
  match (if n.w.recipe = 2 then s.columnStats h n else (some (), s)) with
  | (none, s) => s.setUpd h index { n with stopped := true }
  | (some _, s) =>
    let a := n.nrm + s.bankWr
    let s := s.stateWrite h a (a + 8) (leBytes 8 n.q.toNat)
    let s := if n.nonfinite then s.updHub h fun x => { x with nonfinite := true, updNonfinite := true } else s
    if n.nonfinite && s.mouldSet.step.halt && !s.tracing then
      (s.report (hubDie h) 0x0D [(64, s.stepNo), (3, h), (16, n.pos), (32, n.op.toNat)]).setUpd h index { n with stopped := true }
    else
      let s := if s.digestDue n.w then s.sendDigest h n else s
      let s := s.updHub h fun x => { x with upds := ldel x.upds index, updDone := x.updDone ++ [(n.ord, n.digest, 4 * n.elems)] }
      s.hubItemSignal h n.sig

/-- One element of a rebuild (R461): its working copy from the committed master. -/
def State.rebuildElement (s : State) (h index : Nat) (n : UpdRun) : State :=
  match s.readWords h [n.masters + s.bankRd + 4 * n.next] with
  | (some [w], s) =>
    let s := s.putCopy h n n.next (s.workCopy n n.next w)
    if n.next + 1 = n.elems then (s.updHub h fun x => { x with upds := ldel x.upds index }).hubItemSignal h n.sig
    else s.setUpd h index { n with next := n.next + 1 }
  | (_, s) => s.setUpd h index { n with stopped := true }

/-- Committed state words of element i (R308, R323, R326): master, first moment, second moment, row and column statistics. An
unused one reads as the master's word and is not used. -/
def State.stateAddrs (s : State) (n : UpdRun) (i : Nat) : List Nat :=
  let b := s.bankRd
  let w := n.masters + b + 4 * i
  let hasM := n.w.recipe ≠ 2 || n.w.m1
  [w, if hasM then n.mom + b + 4 * i else w, if n.w.recipe = 3 then n.sec + b + 4 * i else w,
    if n.w.recipe = 2 then n.sec + b + 4 * (i / n.w.cols) else w, if n.w.recipe = 2 then n.col + b + 4 * (i % n.w.cols) else w]

/-- One element (R319, R320, R324 to R327) with its final sum g and its committed state. -/
def State.updateWith (s : State) (h index : Nat) (n : UpdRun) (g w m v r c : W32) : State :=
  let i := n.next
  let x := rnMul g n.rho
  let xc := if n.w.clip then rnMul x n.clipF else x
  let d := direction n xc m v r c
  let w1 := if n.w.decay then rnSub w (rnMul n.eta (rnMul n.w.lambda w)) else w
  let wNew := rnSub w1 (rnMul n.eta d.1)
  let k := i % n.w.cols
  let sq := rnMul xc xc
  let rowAcc := rnAdd (if k = 0 then 0 else n.rowAcc) sq
  let colAcc := if n.w.recipe = 2 then tput 0 n.colAcc k (rnAdd (tget 0 n.colAcc k) sq) else n.colAcc
  let o := s.bankWr
  let put := fun (s : State) (base j cnt : Nat) (v : W32) => s.stateWrite h (base + o + 4 * j) (base + o + 4 * cnt) (leBytes 4 v.toNat)
  let s := if n.w.recipe ≠ 2 || n.w.m1 then put s n.mom i n.elems d.2.1 else s
  let s := if n.w.recipe = 3 then put s n.sec i n.elems d.2.2 else s
  let s := if n.w.recipe = 2 && k + 1 = n.w.cols then
      put s n.sec (i / n.w.cols) (n.elems / n.w.cols) (rnAdd (rnMul n.w.beta2 r) (rnMul n.b2c (rnMul rowAcc n.invC)))
    else s
  let s := put s n.masters i n.elems wNew
  let wc := s.workCopy n i wNew
  let s := s.putCopy h n i wc
  let s := if wc.ovf && !n.overflow then s.hubDross h 0x19 1 else s
  let xd := f32 x
  let q := BitVec.ofNat 64 (fpAdd .f64 (decode .f64 n.q.toNat) (decode .f64 (fpMul .f64 xd xd).bits)).bits
  let n := { n with
    next := i + 1, rowAcc := rowAcc, colAcc := colAcc, q := q, nonfinite := n.nonfinite || badF x || badF wNew
    overflow := n.overflow || wc.ovf, digest := crc64From n.digest (leBytes 4 wNew.toNat) }
  if n.next = n.elems then s.endUpd h index n else s.setUpd h index n

/-- UPDATE_ELEMENT (R310, R317, R319 to R327, R332): the next element of an item, once its final sum has come and no earlier execution
of the item still takes elements in. An item with no elements ends (R320). -/
def execUpdateElement (hb : Fin 8) (index : Nat) (s : State) : Out :=
  let h := hb.val
  .next (match (s.hub h).upds[index]? with
    | none => s
    | some n =>
      if n.stopped || ((s.hub h).upds.take index).any fun m => m.pos == n.pos then s
      else if n.elems ≤ n.next then
        if n.rebuild then (s.updHub h fun x => { x with upds := ldel x.upds index }).hubItemSignal h n.sig else s.endUpd h index n
      else if n.rebuild then s.rebuildElement h index n
      else match s.takeElems h n.epIn 1 with
        | some ([g], s) =>
          match s.readWords h (s.stateAddrs n n.next) with
          | (some [w, m, v, r, c], s) => s.updateWith h index n (g.bits.setWidth 32) w m v r c
          | (_, s) => s.setUpd h index { n with stopped := true }
        | _ => s)

/-- A DIGEST is taken (R331): a peer's master digest is compared with the own one of the same step and operation, or kept until that
is there. -/
def State.onDigest (s : State) (m : PrioHead) (h : Nat) (b : DigestBody) : State :=
  let peer := m.src.toNat
  let step := m.step.toNat
  match (s.hub h).ownDig.find? fun d => d.1 == step && d.2.1 == b.op with
  | some (_, _, own) =>
    if own = b.digest then
      s.updHub h fun x => { x with needDig := x.needDig.filter fun d => !(d.1 == peer && d.2 == b.op) }
    else s.digestFault h peer b.op own b.digest
  | none => s.updHub h fun x => { x with peerDig := x.peerDig ++ [(peer, step, b.op, b.digest)] }

end Sys2Proof.Machine
end

