-- ==== Sys2Proof/Machine/Responses.lean ====
section
/-! DEFINITION. What a memory response does at the agent that asked (R141, R151, R155, R216, R222, R245, R250, R269). -/
namespace Sys2Proof.Machine

/-- One lane of a gather comes (R155, R176): with the last lane of its register, those that came are written, unless one is
uncorrectable. -/
def Ctx.landLane (x : Ctx) (dst lane : Nat) (v : Option W32) : Ctx :=
  let pend := x.pend.erase dst
  let got := x.got ++ [(dst, lane, v)]
  if dst ∈ pend then { x with pend := pend, got := got }
  else
    let mine := got.filter fun g => g.1 == dst
    let whole := mine.all fun g => g.2.2.isSome
    { x with pend := pend, got := got.filter fun g => g.1 != dst
             v := if whole then mine.foldl (fun t g => tput 0 t (16 * dst + g.2.1) (g.2.2.getD 0)) x.v else x.v }

/-- An uncorrectable response: the load writes nothing (R176). -/
def Ctx.failLoad (x : Ctx) (d : LoadDest) : Ctx :=
  match d with
  | .regs dst n _ => { x with pend := x.pend.filter fun r => !(decide (dst ≤ r ∧ r < dst + n)) }
  | .lane dst lane _ => x.landLane dst lane none

/-- Data of a load in its context's registers (R155, R194). The lanes of a gather are written once all of them have come, and none of
them where one is uncorrectable (R176). -/
def Ctx.landLoad (x : Ctx) (d : LoadDest) (b : List Byte) : Ctx :=
  let words := fun (n : Nat) => (unpackBits 32 n (leNat b)).map (BitVec.ofNat 32)
  match d with
  | .regs dst n mask =>
    let v := ((words (16 * n)).zipIdx).foldl (fun (t : Tbl W32) w =>
      if mask.getLsbD (w.2 % 16) then tput 0 t (16 * dst + w.2) w.1 else t) x.v
    { x with v := v, pend := x.pend.filter fun r => !(decide (dst ≤ r ∧ r < dst + n)) }
  | .lane dst lane _ => x.landLane dst lane (some (BitVec.ofNat 32 (leNat b)))

/-- A response at a thread: the request is no longer outstanding (R144), and a write of its launch is accepted (R139, R151). A load's data
lands, or the load traps (R245). A context that runs another launch, or was cleared, takes nothing (R140). -/
def State.threadBack (s : State) (t k c launch : Nat) (pc : BitVec 14) (dest : Option LoadDest) (r : Resp) : State :=
  let s := s.updCluster t k fun cl =>
    let x := cl.ctx c
    let n := b2n r.accepted
    { cl.setCtx c { x with outstanding := x.outstanding - 1, writes := if x.launch = launch then x.writes - n else x.writes } with
      outstanding := cl.outstanding - 1
      launches := cl.launches.map fun l => if l.ordinal = launch then { l with writes := l.writes - n } else l }
  let x := (s.cluster t k).ctx c
  match dest with
  | none => s
  | some d =>
    if x.launch ≠ launch || r.accepted then s
    else match r.data with
      | some b => s.updCluster t k fun cl => cl.setCtx c (x.landLoad d b)
      | none => (s.updCluster t k fun cl => cl.setCtx c (x.failLoad d)).trap t k c pc memUncorrectable

/-- A response at a stream engine (R151, R216, R246). -/
def State.engineBack (s : State) (t e run chunk : Nat) (r : Resp) : State :=
  if r.accepted then
    s.updLtile t fun x => x.setEngine e (match (x.engine e).run? run with
      | some y => (x.engine e).setRun { y with writes := y.writes - 1 }
      | none => x.engine e)
  else s.pieceBack t e run chunk r.data (lget r.req.addr r.bads 0)

/-- Words of a tile's list come from the mould area (R269): where they are not those that mould load put there, the list runs as read. -/
def State.listWords (s : State) (t l addr : Nat) (b : List Byte) : State :=
  let m := s.tileMould t
  let i := (addr - (lget (0, 0) m.listAt l).1) / 8
  let new := unpackBits 64 (b.length / 8) (leNat b)
  let old := lget [] m.words l
  if (old.drop i).take new.length = new then s
  else
    let m' := m.withWords l (old.take i ++ new ++ old.drop (i + new.length))
    let key := (s.role, s.cls, t)
    let now := s.mouldSet.mapping
    { s with loaded := { s.loaded with sets := s.loaded.sets.map fun x =>
        if x.mapping == now then { x with tiles := x.tiles.map fun y => if y.1 == key then (key, m') else y } else x } }

/-- MEMORY_RESPONSE (R222, R245): the agent gets its data or its acceptance. -/
def execMemoryResponse (hb : Fin 8) (index : Nat) (s : State) : Out :=
  let h := hb.val
  .next (match (s.hub h).resps[index]? with
    | none => s
    | some r =>
      let s := s.updHub h fun x => { x with resps := ldel x.resps index }
      match r.req.agent with
      | .thread t k c launch pc dest => s.threadBack t k c launch pc dest r
      | .engine t e run chunk _ => s.engineBack t e run chunk r
      | .listRead t l words => match r.data with
        | some b => (s.listWords t l r.req.addr b).updLtile t fun x => x.setRun l { x.run l with fetched := max (x.run l).fetched words }
        | none => r.bads.foldl (fun s a => s.hubRecord h 0x9 a) s
      | .own => s
      | .none => s)

end Sys2Proof.Machine
end

