-- ==== Sys2Proof/Machine/Events.lean ====
section
/-! DEFINITION. What the crown tells the host and its log: device frames and the outgoing queue (R513, R575), the event log (R469,
R472), long operations (R516), and records that arrive at the crown. -/
namespace Sys2Proof.Machine

/-! ### Frame types and status codes -/

/-- Device frame types (R513). -/
def ftAck : Byte := 0x80
def ftComplete : Byte := 0x81
def ftStep : Byte := 0x82
def ftEvent : Byte := 0x83
def ftRewind : Byte := 0x84
def ftHello : Byte := 0x85
def ftCkpt : Byte := 0x86

/-- Status codes (R512). -/
def stOk : Byte := 0x00
def stBusy : Byte := 0x01
def stSequence : Byte := 0x02
def stBadOpcode : Byte := 0x03
def stBadParam : Byte := 0x04
def stState : Byte := 0x05
def stDenied : Byte := 0x06
def stBadAddress : Byte := 0x07
def stCrc : Byte := 0x08
def stStale : Byte := 0x09
def stIgnored : Byte := 0x0A
def stPassed : Byte := 0x0B
def stAsleep : Byte := 0x0C
def stFailed : Byte := 0x0D
def stCancelled : Byte := 0x0E

/-! ### The lanes of the host link -/

/-- The bytes of a device frame (R510): its header, and its payload padded with zeros to a multiple of 8. -/
def DevFrame.bytes (f : DevFrame) : List Byte :=
  let n := f.payload.length
  leBytes 8 (f.type.toNat * 2 ^ 56 + f.tag.toNat * 2 ^ 48 + f.status.toNat * 2 ^ 40 + f.flags.toNat * 2 ^ 32 + n % 2 ^ 32) ++
  leBytes 8 (f.handle.toNat * 2 ^ 32 + if n = 0 then 0 else (crc32c f.payload).toNat) ++ leBytes 8 f.param0.toNat ++
  leBytes 8 f.param1.toNat ++ f.payload ++ List.replicate ((8 - n % 8) % 8) 0

/-- Send a flit of stream 0 on a lane of the host link (R384, R508). -/
def Link.emit (l : Link) (lane : Nat) (type : BitVec 4) (seq : BitVec 24) (body : List Byte) : Link :=
  let f : Flit := { type := type, seq := seq, ack := Config.yhlAck l.line.length, body := body }
  { l with line := l.line ++ [(lane, { f with crc := flitCrc f })] }

/-- Send a DATA flit, and the IDLE flit that follows it on its lane (R508): the lane of its number modulo 4 (DESIGN CHOICE: R389 leaves it to
the sender). -/
def Link.data (l : Link) (body : List Byte) : Link :=
  let lane := l.next.toNat % 4
  { (l.emit lane 1 l.next body).emit lane 0 0 [] with next := l.next + 1 }

/-- Put a frame's bytes on the lanes (R508, R510), as few flits as hold them (DESIGN CHOICE: R508 lets a flit hold parts of several). -/
def Link.put (l : Link) (f : DevFrame) : Link := (flitBodies f.bytes.length f.bytes).foldl Link.data l

/-- Send a device frame other than an ACK (R508, R575). -/
def Link.send (l : Link) (f : DevFrame) : Link := ({ l with sent := l.sent ++ [f] } : Link).put f

/-- Start anew on the lanes at link-up (R509): the IDENT record, with the host link version. Its bytes are the implementation's. -/
def Link.identify (l : Link) : Link := ({ l with next := 0 } : Link).emit 0 3 0 ((Config.ctrlBytes 7 [1]).take 4096) |>.emit 0 0 0 []

/-! ### Frames to the host -/

/-- SEQ of the log entry an EVENT frame carries. -/
def DevFrame.eventSeq (f : DevFrame) : Option Nat := if f.type = ftEvent then some (leNat (f.payload.take 8)) else none

/-- Mark the log entry of an EVENT frame read or unread (R472, R513, R575). -/
def State.setRead (s : State) (f : DevFrame) (v : Bool) : State :=
  match f.eventSeq with
  | none => s
  | some q => s.updCrown fun c =>
      { c with log := c.log.map fun (e : Nat × LogEntry) => if e.2.seq.toNat = q then (e.1, { e.2 with read := v }) else e }

/-- Whether a full queue may drop a frame (R575). -/
def DevFrame.droppable (f : DevFrame) : Bool := f.type == ftStep || f.type == ftEvent

/-- Put a frame at the end of the outgoing queue of 512, dropping the oldest STEP or EVENT frame of a full one (R575). Without
either it keeps every frame (DESIGN CHOICE: the spec drops no other). -/
def State.enqueue (s : State) (f : DevFrame) : State :=
  let q := s.link.queue ++ [f]
  let q := if q.length ≤ 512 then q else match takeFirst DevFrame.droppable q with
    | some r => r.2
    | none => q
  { s with link := { s.link with queue := q } }

/-- Send a device frame other than an ACK, or queue it while the link is down (R575). -/
def State.sendFrame (s : State) (f : DevFrame) : State :=
  if s.link.up then ({ s with link := s.link.send f } : State).setRead f true else s.enqueue f

/-- End a long operation with its one COMPLETE frame (R516). -/
def State.complete (s : State) (handle : Nat) (status : Byte) (p0 p1 : W64) : State :=
  (s.updCrown fun c => { c with ops := terase c.ops handle }).sendFrame
    { type := ftComplete, status := status, handle := BitVec.ofNat 32 handle, param0 := p0, param1 := p1 }

/-- The handle of a long operation that meets a test. -/
def State.opHandle (s : State) (p : LongOp → Bool) : Option Nat := (s.crown.ops.find? fun o => p o.2).map Prod.fst

/-! ### The event log -/

/-- TIME of the next event: the counter's nanoseconds, or the last TIME issued where the counter reads below it (R469). -/
def State.issueNs (s : State) : Nat := max s.crown.lastTime.toNat (s.time.ns % 2 ^ 64)

/-- The 64 bytes of a log entry (R472). -/
def LogEntry.bytes (e : LogEntry) : List Byte :=
  leBytes 8 e.seq.toNat ++ leBytes 8 e.time.toNat ++ leBytes 8 e.gen.toNat ++
  leBytes 8 (e.type.toNat * 2 ^ 56 + e.die.toNat * 2 ^ 50 + e.code.toNat * 2 ^ 42 + e.body.toNat / 2 ^ 256) ++
  leBytes 32 (e.body.toNat % 2 ^ 256)

/-- Event types that go to the host in an EVENT frame (R513). -/
def eventSent (type : Nat) : Bool := type == 0x08 || type == 0x09 || type == 0x0B || type == 0x0C

/-- Log an event (R469, R472): the next sequence number, the oldest entry overwritten, and an EVENT frame for some types. -/
def State.logEvent (s : State) (type die code : Nat) (body : BitVec 298) : State :=
  let c := s.crown
  let t := s.issueNs
  let e : LogEntry :=
    { seq := c.seq + 1, time := BitVec.ofNat 64 t, gen := BitVec.ofNat 64 c.gen, type := BitVec.ofNat 8 type, die := BitVec.ofNat 6 die
      code := BitVec.ofNat 8 code, body := body }
  let lost := thas c.log c.head.toNat && !(tget {} c.log c.head.toNat).read
  let s := s.updCrown fun c =>
    { c with seq := e.seq, lastTime := e.time, log := tset c.log c.head.toNat e, head := c.head + 1
             overwritten := if lost && c.overwritten ≠ 0xFFFFFFFF then c.overwritten + 1 else c.overwritten }
  if eventSent type then s.sendFrame { type := ftEvent, payload := e.bytes } else s

/-- SUB of a RESTART event by order (DEDUCED: R472 names the field; the codes are those of R451). -/
def restartSub (order : Nat) : Nat := if order ≤ 3 then 0 else if order ≤ 9 then 2 else if order = 10 then 3 else 4

/-- Reach an order of the restart sequence: one RESTART event with SUB, EPOCH, MODE and T (R451, R472). -/
def State.reachOrder (s : State) (order : Nat) : State :=
  let c := s.crown
  (s.updCrown fun c => { c with order := order }).logEvent 0x09 56 0
    (body [(4, restartSub order), (32, c.epoch.toNat), (2, c.mode), (64, c.target)])

/-- EVENT_RECORD (R17, R469, R472): a record that is no fault reaches the crown, a tile's through its hub; the crown stamps and logs it. -/
def execEventRecord (index : Nat) (s : State) : Out :=
  .next (match s.crown.records[index]? with
    | none => s
    | some r => if !s.crownReach r.die then s else (s.updCrown fun c => { c with records := ldel c.records index }).logEvent r.type r.die 0 r.body)

end Sys2Proof.Machine
end

