-- ==== Sys2Proof/Machine/Faults.lean ====
section
/-! DEFINITION. Faults: their report, log and broadcast (R444 to R447, R572), the local abort (R448), and what the coordinator
records of a step (R368, R369). -/
namespace Sys2Proof.Machine

/-! ### The local abort -/

/-- A cluster at a step's start (R72, R140): its stores stay, and its requests on their way stay outstanding (R144). All else is
cleared. -/
def Cluster.cleared (c : Cluster) : Cluster :=
  { istore := c.istore, istoreErr := c.istoreErr, ls := c.ls, lsErr := c.lsErr, outstanding := c.outstanding, launchSeq := c.launchSeq
    ctxs := c.ctxs.map fun e => (e.1, { outstanding := e.2.outstanding }) }

/-- A cluster after an abort (R72, R140): its requests were dropped or are finished (R229). -/
def Cluster.aborted (c : Cluster) : Cluster := { c.cleared with ctxs := [], outstanding := 0 }

/-- An MV half-unit after an abort or at a step's start (R117): what TIL_MV_STATUS shows stays (R131). -/
def MvSt.cleared (m : MvSt) : MvSt := { runNo := m.runNo, itemCode := m.itemCode, setNo := m.setNo, itemNo := m.itemNo }

/-- A tile at a step's start (R72, R117, R140). Riser tags stay. -/
def Tile.cleared (x : Tile) : Tile :=
  { x with clusters := x.clusters.map (fun e => (e.1, e.2.cleared)), mvs := x.mvs.map (fun e => (e.1, e.2.cleared)), engines := [], lists := [], tokens := [], prologue := [] }

/-- A tile after an abort. -/
def Tile.aborted (x : Tile) : Tile := { x.cleared with clusters := x.clusters.map fun e => (e.1, e.2.aborted) }

/-- Whether a tag is PROV. -/
def Tag.isProv : Tag → Bool
  | .prov _ => true
  | .empty => false
  | .final _ => false

/-- Every PROV tag becomes EMPTY (R297). -/
def dropProv (t : Tbl Tag) : Tbl Tag := t.filter fun e => !e.2.isProv

/-- Streams of the abandoned step are dropped (R346): nothing more of them is sent, and what still comes of one is discarded. -/
def Port.dropStreams (p : Port) : Port :=
  { p with tx := []
           rx := (p.rx.filter fun r => !r.complete).map fun r =>
             if r.refusing.isSome then r else { r with bound := .dropped, held := [], delivered := r.delivered + r.held.length } }

/-- A slot that is being written becomes EMPTY (R456). -/
def CkptSlot.cancelled (c : CkptSlot) : CkptSlot := if c.state = 1 then {} else c

/-- A hub after a local abort (R229, R448): what it has accepted stays in its slots until it is served. -/
def Hub.aborted (x : Hub) (keep : Bool) : Hub :=
  { x.cleared with
    ingress := x.ingress.filter (fun e => e.1 == queueStatic || e.1 == queueFettle), passed := [], resps := [], adds := [], spill := [], peerDig := [], ckpt := [], restoring := false, relabel := false
    slot0 := x.slot0.cancelled, slot1 := x.slot1.cancelled, ports := x.ports.map fun e => (e.1, e.2.dropStreams)
    tags := if keep then x.tags else dropProv x.tags }

/-- Change every tile die that has been touched. -/
def State.mapTiles (s : State) (f : Tile → Tile) : State := { s with tiles := s.tiles.map fun (e : Nat × Tile) => (e.1, f e.2) }

/-- Change every one of the eight hubs. -/
def State.eachHub (s : State) (f : Nat → Hub → Hub) : State := (List.range 8).foldl (fun s h => s.updHub h (f h)) s

/-- Every PROV tag of the device, risers included, becomes EMPTY (R297). -/
def State.dropProv (s : State) : State :=
  (s.mapHubs fun x => { x with tags := Sys2Proof.Machine.dropProv x.tags }).mapTiles fun x =>
    { x with risers := Sys2Proof.Machine.dropProv x.risers }

/-- End a replay that the host asked for, without its effect (R465, R516). -/
def State.stopReplay (s : State) : State :=
  if !s.tracing then s
  else
    let s := (s.mapHubs fun x => x.aborted false).mapTiles Tile.aborted
    let s := s.updCrown fun c => { c with openStep := none, replayFeed := false }
    match s.opHandle fun o => match o with | .replay _ _ => true | _ => false with
    | some h => s.complete h stFailed 0 0
    | none => s

/-- The local abort of R448 begins. A device that aborts without the outcome of the step it voted for keeps its PROV tags and that
step, until GO settles it (R370, R447). -/
def State.beginAbort (s : State) (keep : Bool) : State :=
  let s := s.stopReplay
  let o := match s.crown.openStep with | some o => some o | none => s.crown.held
  let s := (s.mapHubs fun x => x.aborted keep).mapTiles Tile.aborted
  let s := if keep then s else s.dropProv
  let s := s.updCrown fun c =>
    { c with rstate := .aborting, openStep := none, held := if keep then o else none, voted := if keep then c.voted else none
             commitHeld := keep && c.commitHeld, deferring := false, rebuild := false, deadline := false, votes := [], decided := none
             signals := [], reshardIn := [], phaseDone := [], phaseHeld := false, mode := 0, dones := [], expectDone := [], leading := false }
  s.reachOrder 1

/-! ### The coordinator's record -/

/-- The commit coordinator's rank (R289). -/
def State.coord (s : State) : Nat := s.mouldSet.step.coord

/-- Whether this device is the coordinator. -/
def State.isCoord (s : State) : Bool := s.crown.rankNow.toNat == s.coord

/-- The job ranks but this one, ascending. -/
def State.otherRanks (s : State) : List Nat := (List.range s.mouldSet.ranks).filter fun r => r ≠ s.crown.rankNow.toNat

/-- Record the outcome of step g in the own crown, then send it to every other rank in ascending rank order (R369). -/
def State.recordDecision (s : State) (g : Nat) (discard : Bool) (reason : Nat) : State :=
  let s := s.updCrown fun c =>
    { c with decided := some (g, discard, reason), votes := [], cancelPending := c.cancelPending && decide (reason ≠ 4) }
  s.otherRanks.foldl (fun s r => s.sendPrio r g (.outcome { discard := discard, reason := BitVec.ofNat 3 reason })) s

/-- Whether the coordinator has decided step g. -/
def State.isDecided (s : State) (g : Nat) : Bool := match s.crown.decided with | some d => d.1 == g | none => false

/-! ### Faults at the crown -/

/-- The step that an outcome is due for: the one that is open, or C + 1 while none is, as where the feed of C + 1 is late. -/
def State.dueStep (s : State) : Nat :=
  match s.crown.openStep with
  | some o => if o.replay then s.crown.gen + 1 else o.step
  | none => s.crown.gen + 1

/-- A fault before the outcome of the step in progress (R21, R368, R369): the coordinator decides DISCARD for it, once. -/
def State.discardDue (s : State) : State :=
  if s.isCoord && !s.isDecided s.dueStep then s.recordDecision s.dueStep true 2 else s

/-- A RUNNING crown learns of its first fault (R21, R368, R370, R446, R447): the coordinator discards the step in progress; a device that
has voted for its open step and holds no outcome defers; any other aborts. -/
def State.actOnFault (s : State) : State :=
  if s.isCoord then s.discardDue.beginAbort false
  else if (match s.crown.openStep with | some o => !o.replay | none => false) && s.crown.voted.isSome then
    s.updCrown fun c => { c with deferring := true }
  else s.beginAbort false

/-- A crown that is RESTARTING learns of a fault (R21, R368, R454): the coordinator discards the init step where that is open; every device
returns to order 1. -/
def State.actAgain (s : State) : State :=
  (if s.crown.openStep.any fun o => !o.replay then s.discardDue else s).beginAbort false

/-- The FAULT_NOTICE of a fault just logged (R446). -/
def State.sendNotice (s : State) (r : Report) : State :=
  s.bcastPrio s.stepNo (.notice
    { epoch := s.crown.epoch, code := BitVec.ofNat 8 r.code, die := BitVec.ofNat 6 r.die, detail0 := r.body.setWidth 64
      detail1 := (r.body >>> 64).setWidth 64, seq := s.crown.seq })

/-- Write a fault into the log (R572): under its own event type first, then as the FAULT event. -/
def State.writeFault (s : State) (r : Report) : State :=
  let s := match r.type with
    | some t => s.logEvent t r.die 0 r.body
    | none => s
  let s := s.logEvent 0x08 r.die r.code r.body
  s.updCrown fun c => { c with lastCode := BitVec.ofNat 8 r.code }

/-- Log a fault that was raised on this device, and count it (R473, R572). -/
def State.logFault (s : State) (r : Report) : State := (s.writeFault r).crownDross 0x1F 1

/-- A fault reaches the crown (R445, R446, R454): a RUNNING crown's first one, and one at orders 6 to 11 of a restart, goes out as a
notice; any other is logged and counted. -/
def State.takeFault (s : State) (r : Report) : State :=
  let s := s.logFault r
  match s.crown.rstate with
  | .running => if s.crown.deferring then s else (s.sendNotice r).actOnFault
  | .restarting => (s.sendNotice r).actAgain
  | .aborting => s
  | .idle => s
  | .stalled => s.stopReplay

/-- A fault that the crown raises itself (R445). -/
def State.crownFault (s : State) (code : Nat) (fs : List (Nat × Nat)) : State := s.takeFault { code := code, body := body fs }

/-- FAULT_REPORT (R17, R445, R446): a die's fault report reaches its crown, a tile's through its hub. -/
def execFaultReport (index : Nat) (s : State) : Out :=
  .next (match s.crown.reports[index]? with
    | none => s
    | some r => if !s.crownReach r.die then s else (s.updCrown fun c => { c with reports := ldel c.reports index }).takeFault r)

/-- A FAULT_NOTICE is taken (R447, R454). -/
def State.onNotice (s : State) : State :=
  match s.crown.rstate with
  | .running => if s.crown.deferring then s else s.actOnFault
  | .restarting => s.actAgain
  | .aborting => s
  | .idle => s
  | .stalled => s

/-- ABORT_DEFER_TIMEOUT (R370, R447): WINDOW has passed without an outcome; the PROV tags are kept. -/
def execAbortDeferTimeout (s : State) : Out := .next (if s.crown.deferring then s.beginAbort true else s)

/-- Whether every hub has finished its accepted requests. -/
def State.hubsQuiet (s : State) : Bool := s.hubs.all fun e => e.2.slots = []

/-- Take every connected port down for link-up (R451 order 2). -/
def State.retrainPorts (s : State) : State :=
  (List.range 16).foldl (fun s q => if (s.wire (q / 2) (q % 2)).1 then s.updPort (q / 2) (q % 2) Port.retrain else s) s

/-- Change every channel that the hubs have. -/
def State.eachChan (s : State) (f : Hub → Nat → Chan → Chan) : State :=
  s.eachHub fun h x => (List.range 14).foldl (fun y c => if hasChan h c then y.setChan c (f x c (y.chan c)) else y) x

/-- Send the VER record of the hub's end of every channel, on its lowest-numbered good group (R431). -/
def State.sendVers (s : State) : State :=
  s.eachChan fun x c y =>
    { y with verSent := (y.tx.good c).head?.map fun g =>
        (g, { kind := 1, revision := x.revision, version := 1, features := (Config.features 1).setWidth 64, contract := 1 }) }

/-- Every D2D channel trains and negotiates anew (R427, R431): none is in use until then. -/
def State.trainChans (s : State) : State := (s.eachChan fun _ _ y => { y with state := 4, version := 0, features := 0 }).sendVers

/-- LOCAL_ABORT_DONE (R448, R451): every hub has finished its accepted requests; order 2 begins. What those requests returned, and
what they covered, counts for nothing. -/
def execLocalAbortDone (s : State) : Out :=
  .next (if s.crown.rstate ≠ .aborting || s.crown.order ≠ 1 || !s.hubsQuiet || s.power.quenching || s.power.quenched then s
    else
      let s := s.mapHubs fun x => { x with resps := [], covered := [] }
      let s := if s.crown.held.isSome then s else s.dropProv
      (s.reachOrder 2).retrainPorts.trainChans)

end Sys2Proof.Machine
end

