-- ==== Sys2Proof/Machine/MouldCheck.lean ====
section
/-! DEFINITION. The checks of mould load (R80, R82, R120, R136, R159, R206, R213, R234, R268, R274, R278 to R300, R306, R308, R312,
R315, R316, R322, R332, R337, R338, R360, R365, R374, R403, R404, R484, R493), for every role and every rank bound to it. An address
that selects a manifest word is not known at load. -/
namespace Sys2Proof.Machine

/-! ### Addresses -/

/-- A selected value for a rank at load (R267, R307); none where it selects a manifest word. -/
def MouldSet.resolve (m : MouldSet) (rank sel lit : Nat) : Option Nat :=
  if sel = 0 then some lit
  else if sel < 48 then some (((lget 0 (lget [] m.bindings rank) sel).toNat + lit) % 2 ^ 64)
  else none

/-- A selected address. -/
def MouldSet.resolveAddr (m : MouldSet) (rank sel lit : Nat) : Option Nat := (m.resolve rank sel lit).map (· % 2 ^ 42)

/-- BANK_SPAN of a rank (R266). -/
def MouldSet.spanOf (m : MouldSet) (rank : Nat) : Nat := (lget 0 (lget [] m.bindings rank) 47).toNat

/-- Role of a rank (R266). -/
def MouldSet.roleOf (m : MouldSet) (rank : Nat) : Nat := bits (lget 0 (lget [] m.bindings rank) 0).toNat 63 58

/-- Hub moulds of a role, with class and hub. -/
def MouldSet.hubsOf (m : MouldSet) (role : Nat) : List (Nat × Nat × HubMould) :=
  (m.hubs.filter fun x => x.1.1 == role).map fun x => (x.1.2.1, x.1.2.2, x.2)

/-- Tagged ranges of a rank in both banks (R296). -/
def MouldSet.taggedOf (m : MouldSet) (rank : Nat) : List (Nat × Nat) :=
  (m.hubsOf (m.roleOf rank)).flatMap fun x => x.2.2.tagged.flatMap fun r => [r, (r.1 + m.spanOf rank, r.2)]

/-- Whether a range lies within one of a list. -/
def inOne (l : List (Nat × Nat)) (a n : Nat) : Bool := l.any fun r => decide (r.1 ≤ a ∧ a + n ≤ r.1 + r.2)

/-- Whether a range touches one of a list. -/
def touchesAny (l : List (Nat × Nat)) (a n : Nat) : Bool := l.any fun r => overlaps a n r.1 r.2

/-- The banks that a BANK field may name (R278), as what they add. -/
def MouldSet.banksOf (m : MouldSet) (rank bank : Nat) : List Nat := if bank = 0 then [0] else [0, m.spanOf rank]

/-- The executions of an entry at which its addresses differ (R272, R274): all of them where an advance moves them. A count taken from
the manifest is at most the chunks of class 8 (R265). -/
def MouldSet.execsOf {α : Type} (m : MouldSet) (l : List (Entry α)) (pos : Nat) (h : Head) : List Nat :=
  if (h.adv.map Adv.addr).getD 0 = 0 then [0] else List.range (runsOf (fun _ => (lget {} m.classes 8).chunkCap) l pos)

/-- Where a memory range of an entry lies: the places it may take over its banks and executions. -/
def MouldSet.places (m : MouldSet) (rank : Nat) (h : Head) (execs : List Nat) (sel lit bank : Nat) : List Nat :=
  match m.resolveAddr rank sel lit with
  | none => []
  | some a => execs.flatMap fun i => (m.banksOf rank bank).map fun b => wrap 42 ((a : Int) + h.addr i + b)

/-- Hub-reserved areas of the package (R213). -/
def Placement.reserved (p : Placement) : List (Nat × Nat) :=
  p.hubs.flatMap fun h => [h.fl0, h.fl1, h.spill, (h.partner.1, 2 * h.partner.2)]

/-- Ranges the pattern marks STATIC (R244). -/
def Placement.static (p : Placement) : List (Nat × Nat) :=
  p.hubs.flatMap fun h => (h.ranges.filter fun r => r.kind ≠ 1).map fun r => (r.base, r.size)

/-! ### Tile moulds -/

/-- Repeats balance, nest at most 4 deep, and take a count from the manifest in class 8 only (R274). -/
def repeatsOk {α : Type} (chunked : Bool) : Nat → List (Entry α) → Bool
  | d, [] => d == 0
  | d, .rbegin _ _ fm _ :: t => decide (d < 4) && (!fm || chunked) && repeatsOk chunked (d + 1) t
  | d, .rend _ :: t => d != 0 && repeatsOk chunked (d - 1) t
  | d, .item _ _ :: t => repeatsOk chunked d t

/-- A format code that is defined (R173). -/
def fmtOk (c : Nat) : Bool := (Fmt.ofCode c).isSome

/-- An operand's format in the array and the MV path (R30): not I32 and not binary64, and MX with FP4, FP6 and FP8 only. -/
def Operand.ok (o : Operand) : Bool := decide (o.fmt ≤ 9) && o.fmt != 3 && (!o.mx || decide (5 ≤ o.fmt))

/-- The output of a drain (R30, R89, R173): RAW, or a format but binary64, MX with FP4, FP6 and FP8 only. -/
def outOk (fmt : Nat) (mx : Bool) : Bool := if fmt = 0xF then !mx else decide (fmt ≤ 9) && (!mx || decide (5 ≤ fmt))

/-- PIECE against format (R82): a binary32 operand has a piece, any other is FULL. -/
def pieceOk (piece fmt : Nat) : Bool := (piece != 0) == (fmt == 0)

/-- One pour item (R30, R80 to R82). -/
def PourItem.ok (x : PourItem) : Bool :=
  match x.code with
  | 0 => x.a.ok && pieceOk x.pieceA x.a.fmt
  | 1 => x.a.ok && pieceOk x.pieceA x.a.fmt
  | 2 => x.a.ok && pieceOk x.pieceA x.a.fmt
  | 3 => x.a.ok && x.b.ok && pieceOk x.pieceA x.a.fmt && pieceOk x.pieceB x.b.fmt
  | 4 => outOk x.outFmt x.a.mx
  | 6 => outOk x.outFmt x.a.mx
  | _ => true

/-- The shape of a pour list (R80): its prologue preloads only, and no pour or prologue holds more than 4,096 items, which are the
entries of the list, an item in a repeat counting once (DESIGN CHOICE: R80 does not say whether executions count). -/
def pourShape (l : List (Entry PourItem)) : Bool :=
  let items := l.filterMap Entry.body?
  let r := items.foldl (fun (acc : Bool × Bool × Nat) x =>
    if x.code = 0 then (acc.1, true, 0)
    else (acc.1 && (acc.2.1 || x.code == 5 || x.code == 7) && decide (acc.2.2 < 4096), acc.2.1, acc.2.2 + 1)) (true, false, 0)
  r.1

/-- One MV item (R30, R120), given the LEN of the VLOAD that last wrote each set. -/
def MvItem.ok (x : MvItem) (descs : List Desc) (lens : Nat × Nat) : Bool :=
  let len := if x.set = 0 then lens.1 else lens.2
  let d := lget {} descs x.desc
  let run := d.dstKind == 3 && ({ fmt := d.fmt, mx := d.mx } : Operand).ok && d.fmt != 0 && decide (x.desc < descs.length) &&
    (x.seg == 512 || decide (x.k ≤ x.seg))
  match x.code with
  | 0 => x.a.ok && x.a.fmt != 0
  | 1 => run && decide (x.ob + x.nrow ≤ 2048 ∧ x.k ≤ len)
  | 2 => run && decide (x.ob + x.k ≤ 2048 ∧ x.nrow ≤ len)
  | 3 => outOk x.outFmt x.a.mx
  | _ => true

/-- What an MV item leaves of the LENs of the two sets. -/
def MvItem.lens (x : MvItem) (l : Nat × Nat) : Nat × Nat := if x.code = 0 then (if x.set = 0 then (x.k, l.2) else (l.1, x.k)) else l

/-- Walk an MV list from the LENs that may stand before it to its end or the end of the open repeat: whether all is well, the LENs that may
stand after, and the rest. A group is walked twice where it may run more than once: a further pass finds the LENs of the second. Fuel:
entries. -/
def mvWalk (descs : List Desc) : Nat → List (Entry MvItem) → List (Nat × Nat) → Bool × List (Nat × Nat) × List (Entry MvItem)
  | 0, l, st => (true, st, l)
  | _, [], st => (true, st, [])
  | _ + 1, .rend _ :: t, st => (true, st, t)
  | n + 1, .item _ x :: t, st =>
    let r := mvWalk descs n t ((st.map x.lens).eraseDups)
    (st.all (x.ok descs) && r.1, r.2)
  | n + 1, .rbegin _ c fm _ :: t, st =>
    let a := mvWalk descs n t st
    let b := mvWalk descs n t a.2.1
    let ok := (!fm && c == 0) || (a.1 && ((!fm && c == 1) || b.1))
    let out := if fm then (st ++ a.2.1 ++ b.2.1).eraseDups else if c = 0 then st else if c = 1 then a.2.1 else b.2.1
    let r := mvWalk descs n a.2.2 out
    (ok && r.1, r.2)

/-- An MV list (R120): lengths against segments, registers and the VLOAD that last wrote the set, over the passes of its repeats. -/
def mvOk (descs : List Desc) (l : List (Entry MvItem)) : Bool := (mvWalk descs l.length l [(0, 0)]).1

/-- Whether a launch may name an epoch that a fence before it has closed (R159, R226): a wait of the launch, or of an item before it in
its list, is met only when the hub's fence of that epoch has finished. fences are the hub's fences that list the tile, in order: epoch
and token (DEDUCED: only a token of a fence orders a launch after it; no other signal counts). -/
def launchesOk (fences : List (Nat × Nat)) (l : List (Entry LaunchItem)) : Bool :=
  let closed := fun (w : Nat × Nat) => (fences.zipIdx.filter fun f => f.1.2 == w.1 &&
    decide (((fences.take (f.2 + 1)).filter fun g => g.2 == w.1).length ≤ w.2)).flatMap fun f => (fences.take (f.2 + 1)).map Prod.fst
  l.zipIdx.all fun e => match e.1 with
    | .item _ x => ((l.take (e.2 + 1)).filterMap fun y => y.head.wait).all fun w => !(closed w).contains x.epoch
    | .rbegin _ _ _ _ => true
    | .rend _ => true

/-- Bytes of a row of elements. -/
def rowBytes (fmt n : Nat) : Nat := cdiv (((Fmt.ofCode fmt).getD .f32).width * n) 8

/-- Alignment of a row's start (R279). -/
def rowStart (kind : Nat) : Nat := if kind = 1 then 32 else if kind = 0 then 64 else 1

/-- What the advances of the list items that run a descriptor add to its addresses (R272), and nothing for its other runs. -/
def MouldSet.addsOf (m : MouldSet) (t : TileMould) (desc : Nat) : List Int :=
  (0 :: t.streams.flatMap fun l => l.zipIdx.flatMap fun e => match e.1 with
    | .item h d => if d = desc then (m.execsOf l e.2 h).map h.addr else []
    | .rbegin _ _ _ _ => []
    | .rend _ => []).eraseDups

/-- Where a side of a descriptor starts, over its banks and advances; none where a manifest word selects it. -/
def MouldSet.starts (m : MouldSet) (rank kind bank sel lit : Nat) (adds : List Int) : List Nat :=
  match m.resolveAddr rank sel lit with
  | none => []
  | some a => adds.flatMap fun x => (if kind = 1 then m.banksOf rank bank else [0]).map fun b => wrap 42 ((a : Int) + x + b)

/-- Bytes of a descriptor's rows on a side, and of its scale stream (R279). -/
def Desc.dataLen (d : Desc) (stride : Nat) : Nat := (d.rows - 1) * stride + rowBytes d.fmt d.rowElems
def Desc.scaleLen (d : Desc) : Nat := if d.mx then d.rows * cdiv d.rowElems 32 else 0

/-- Memory ranges of a descriptor's two sides and their scale streams (R206, R278, R279). -/
def MouldSet.descRanges (m : MouldSet) (rank : Nat) (d : Desc) (adds : List Int) : List (Nat × Nat) :=
  let side := fun (kind bank sel lit ssel slit stride : Nat) => if kind ≠ 1 then [] else
    ((m.starts rank 1 bank sel lit adds).map fun a => (a, d.dataLen stride)) ++ (m.starts rank 1 bank ssel slit adds).map fun a => (a, d.scaleLen)
  (side d.srcKind d.srcBank d.srcSel d.src d.sscSel d.ssc d.srcStride ++ side d.dstKind d.dstBank d.dstSel d.dst d.dscSel d.dsc d.dstStride).filter
    fun r => r.2 ≠ 0

/-- A side of a descriptor (R279): its rows start aligned, in every bank and at every advance. -/
def MouldSet.sideOk (m : MouldSet) (rank kind bank sel lit stride rows : Nat) (adds : List Int) : Bool :=
  (rows == 1 || stride % rowStart kind == 0) && (m.starts rank kind bank sel lit adds).all fun a => a % rowStart kind == 0

/-- A stream descriptor (R206, R278 to R280): its memory ranges, with those of its scale streams, are mapped, populated and free of
reserved areas. A destination may name bank code 1, CB (DESIGN CHOICE: R20 has no step write that bank, and no rule rejects the
code). -/
def State.descOk (s : State) (p : Placement) (m : MouldSet) (rank : Nat) (t : TileMould) (d : Desc) (adds : List Int) : Bool :=
  let whole := d.rows == 1 || (if d.fmt = 9 then d.rowElems % 2 == 0 else if d.fmt = 7 || d.fmt = 8 then d.rowElems % 4 == 0 else true)
  let kick := !d.tkick || (match (lget [] t.launches d.cluster)[d.kickLaunch]? with
    | some (.item _ _) => true
    | some (.rbegin _ _ _ _) => false
    | some (.rend _) => false
    | none => false)
  whole && kick && m.sideOk rank d.srcKind d.srcBank d.srcSel d.src d.srcStride d.rows adds &&
    m.sideOk rank d.dstKind d.dstBank d.dstSel d.dst d.dstStride d.rows adds &&
    (m.descRanges rank d adds).all fun r => s.rangeOk r.1 r.2 && !touchesAny p.reserved r.1 r.2

/-- Tagged ranges of one hub mould in both banks. -/
def MouldSet.taggedAt (m : MouldSet) (rank c h : Nat) : List (Nat × Nat) :=
  (((m.hubsOf (m.roleOf rank)).filter fun x => x.1 == c && x.2.1 == h).flatMap fun x => x.2.2.tagged).flatMap fun r =>
    [r, (r.1 + m.spanOf rank, r.2)]

/-- A riser fill (R298, R300): its riser exists, no selector names a manifest word, and a memory source, with its scale stream, lies within
one tagged range of the hub that owns it, in each bank and at each advance. -/
def MouldSet.fillOk (m : MouldSet) (rank : Nat) (t : TileMould) (d : Desc) (adds : List Int) : Bool :=
  let within := fun (a n : Nat) => n == 0 || (match addrHome a with
    | none => false
    | some (h, _, _) => inOne (m.taggedAt rank t.cls h) a n)
  d.riser == 0xFF || (decide (d.riser < t.risers.length) && decide (d.srcSel < 48 ∧ d.dstSel < 48 ∧ d.sscSel < 48 ∧ d.dscSel < 48) &&
    (d.srcKind != 1 || (((m.starts rank 1 d.srcBank d.srcSel d.src adds).all fun a => within a (d.dataLen d.srcStride)) &&
      (m.starts rank 1 d.srcBank d.sscSel d.ssc adds).all fun a => within a d.scaleLen)))

/-- The riser table (R295, R298): no two risers of a cluster overlap, and a prologue reads the committed bank and fills its riser. -/
def TileMould.risersOk (t : TileMould) : Bool :=
  t.risers.zipIdx.all fun r =>
    (t.risers.zipIdx.all fun q => q.2 == r.2 || q.1.cluster != r.1.cluster || !overlaps r.1.addr r.1.size q.1.addr q.1.size) &&
    (r.1.prologue == 0x1FFF || (decide (r.1.prologue < t.descs.length) &&
      let d := lget {} t.descs r.1.prologue
      d.srcBank == 1 && d.riser == r.2))

/-- A filler-permitted wait (R271, R284): on a LOAD of a cluster with a filler block only. -/
def TileMould.fillersOk (t : TileMould) : Bool :=
  let no := fun {α : Type} (ls : List (List (Entry α))) => ls.all fun l => l.all fun e => !e.head.fillerOk
  no t.mvs && no t.launches && no t.streams && t.pours.zipIdx.all fun l => l.1.all fun e => !e.head.fillerOk ||
    (match e with
     | .item _ x => x.code == 0 && (lget none t.filler l.2).isSome
     | .rbegin _ _ _ _ => false
     | .rend _ => false)

/-- What of a tile mould does not depend on the rank (R80, R82, R120, R136, R274, R275, R280, R284, R295). -/
def TileMould.ok (t : TileMould) : Bool :=
  let c8 := t.cls == 8
  t.pours.all (fun l => repeatsOk c8 0 l && pourShape l && l.all fun e => match e.body? with | some x => x.ok | none => true) &&
  t.mvs.all (fun l => repeatsOk c8 0 l && mvOk t.descs l) &&
  t.launches.all (fun l => repeatsOk c8 0 l && l.all fun e => match e.body? with
    | some x => decide (x.first + x.count ≤ 256) && (x.riser == 0xFF || decide (x.riser < t.risers.length))
    | none => true) &&
  t.streams.all (fun l => repeatsOk c8 0 l && l.all fun e => match e.body? with | some d => decide (d < t.descs.length) | none => true) &&
  t.pours.all (fun l => decide ((l.filter fun e => match e.body? with | some x => x.adj | none => false).length ≤ 4096)) &&
  t.mvs.all (fun l => decide ((l.filter fun e => match e.body? with | some x => x.adj | none => false).length ≤ 4096)) &&
  t.risersOk && t.fillersOk

/-! ### Hub moulds -/

/-- Items of a hub mould with their lists and positions. -/
def HubMould.items (x : HubMould) : List (Nat × Nat × HubItem) :=
  x.lists.zipIdx.flatMap fun l => l.1.zipIdx.filterMap fun e => e.1.body?.map fun it => (l.2, e.2, it)

/-- Items of a hub mould with their lists, their headers and the executions that move their addresses. -/
def MouldSet.runs (m : MouldSet) (x : HubMould) : List (Nat × Head × List Nat × HubItem) :=
  x.lists.zipIdx.flatMap fun l => l.1.zipIdx.filterMap fun e => match e.1 with
    | .item h it => some (l.2, h, m.execsOf l.1 e.2 h, it)
    | .rbegin _ _ _ _ => none
    | .rend _ => none

/-- State ranges of an UPDATE item (R308, R323, R326): selector and address, bytes; the first five are masters and recipe state. -/
def updRanges (it : HubItem) (w : UpdWords) : List ((Nat × Nat) × Nat) :=
  let n := 4 * it.elems
  let k := ((Fmt.ofCode it.fmt).getD .bf16).width / 8
  let rows := if w.cols = 0 then 0 else it.elems / w.cols
  [((it.sel, it.addr), n)] ++
  (if w.recipe ≠ 2 || w.m1 then [(w.mom, n)] else []) ++
  (if w.recipe = 3 then [(w.sec, n)] else if w.recipe = 2 then [(w.sec, 4 * rows), (w.col, 4 * w.cols)] else []) ++
  [(w.wc, k * it.elems), (w.nrm, 8)]

/-- Whether a binary32 pattern is positive and finite. -/
def posFinite (w : W32) : Bool := decide (0 < w.toNat ∧ w.toNat < 0x7F800000)

/-- The learning-rate table as memory holds it at load (R232, R316, R322): the whole table is STATIC and its STARTs ascend. A COUNT of 0,
as a plate that nothing has filled reads, has no STARTs to compare and is left to the check at use (DEDUCED). -/
def State.lrtOk (s : State) (p : Placement) (a : Nat) : Bool :=
  let n := leNat (readBytes s.mem a 8)
  let e := (List.range n).map fun i => leNat (readBytes s.mem (a + 8 + 16 * i) 8)
  decide (n ≤ 4096) && inOne p.static a (8 + 16 * n) && (e.zip (e.drop 1)).all fun x => decide (x.1 < x.2)

/-- An UPDATE item (R308, R309, R315, R316, R322, R332), over its executions: each state range is an entry of the hub's tagged-range
table, by its bank 0 address and size (DEDUCED: R308 has every such range be an entry, and R297 tags entries as wholes). -/
def State.updOk (s : State) (p : Placement) (m : MouldSet) (rank : Nat) (tagged : List (Nat × Nat)) (hd : Head) (execs : List Nat) (it : HubItem)
    (w : UpdWords) : Bool :=
  let at' := fun (x : Nat × Nat) (bank : Nat) => m.places rank hd execs x.1 x.2 bank
  let within := fun (x : (Nat × Nat) × Nat) => x.2 == 0 || (at' x.1 0).all fun a => decide ((a, x.2) ∈ tagged)
  let hbm := fun (x : Nat × Nat) (n : Nat) => (at' x 1).all fun a => decide (a + n ≤ 8 * hbmSlice)
  let zero := fun (b : Bool) (x : Nat × Nat) => b || x == (0, 0)
  it.bankSel == 0 && it.peer == 0 && it.peerSel == 0 && (it.fmt == 1 || it.fmt == 5 || it.fmt == 6) && decide (w.recipe ≤ 3) &&
    (!w.m1 || w.recipe == 2) &&
    (if w.recipe = 2 then decide (1 ≤ w.cols ∧ w.cols ≤ 16384 ∧ it.elems % w.cols = 0) else w.cols == 0) && (!w.clip || posFinite w.tau) &&
    ((w.digSlots.take w.digN).all fun k => decide (1 ≤ k ∧ k ≤ 47)) && zero (w.recipe ≠ 2 || w.m1) w.mom && zero (2 ≤ w.recipe) w.sec &&
    zero (w.recipe = 2) w.col && (updRanges it w).all within &&
    hbm w.wc (((Fmt.ofCode it.fmt).getD .bf16).width / 8 * it.elems) && hbm w.nrm 8 && ((at' w.nrm 1).all fun a => a % 8 == 0) &&
    (at' w.lrt 0).all (s.lrtOk p)

/-- A TREE_NODE by itself (R335, R337). -/
def nodeOk (it : HubItem) (w : NodeWords) : Bool :=
  it.addr == 0 && it.bankSel == 0 && it.fmt == 0 && it.peer == 0 && decide (it.peerSel < 48) &&
    it.epIn == (lget {} w.slots 0).primary && (w.slots.all fun k => (k.bkp || k.backup == 0xFFF) && (k.leaf || k.ltile == 0x3F)) &&
    (!w.gcmp || (w.final && w.gaunt)) &&
    (if w.norm then it.elems == 1 && w.outWire == 3 && (w.slots.all fun k => k.wire == 3 && !k.bkp) && !w.final && !w.gaunt
     else w.outWire != 3 && (w.slots.all fun k => k.wire != 3) && (w.outWire == 0) == w.final)

/-- What of a hub item no rank decides (R173, R285 to R288, R337, R359, R360, R365, R403, R404). -/
def HubItem.ok (it : HubItem) (m : MouldSet) : Bool :=
  match it.body with
  | .fence _ _ _ => true
  | .plateClear _ _ _ => true
  | .node w => nodeOk it w
  | .update _ => true
  | .ladle _ _ _ _ _ _ => fmtOk it.fmt && it.epOut == 0xFFF && it.peerSel == 0 && it.peer == 0 && it.op == 0
  | .portSend _ _ _ _ => fmtOk it.fmt && it.epOut == 0xFFF
  | .portRecv _ _ => fmtOk it.fmt && it.epIn == 0xFFF
  | .ckptSend _ => it.bankSel == 1 && it.fmt == 4 && it.epIn == 0xFFF && it.peerSel == m.step.partnerSel && it.op == 0
  | .tier _ => fmtOk it.fmt

/-- One hub item of hub h on a rank (R231, R234, R308, R403): tagged are the entries of its hub's table. own says that the rank is this
device's, whose route block holds its wires. A destination may name bank code 1 (as in State.descOk). -/
def State.hubItemOk (s : State) (p : Placement) (m : MouldSet) (rank h : Nat) (own : Bool) (tagged : List (Nat × Nat)) (l : Nat) (hd : Head)
    (execs : List Nat) (it : HubItem) : Bool :=
  match it.body with
  | .plateClear slow plate count =>
    let size := if slow then slowSlice else hbmSlice
    let a := sliceAddr h slow (plate * 4096)
    let both := tagged.flatMap fun r => [r, (r.1 + m.spanOf rank, r.2)]
    decide ((plate + count) * 4096 ≤ size) && !touchesAny both a (count * 4096) && !touchesAny p.reserved a (count * 4096)
  | .update w => s.updOk p m rank tagged hd execs it w
  | .portSend _ _ _ _ => !own || bit (lget 0 s.routeBlock.wire (2 * h + (l - 3))).toNat 31
  | _ => true

/-- UPDATE items of one hub mould name no overlapping master or recipe-state ranges, in either bank, at any execution (R312). -/
def MouldSet.updApart (m : MouldSet) (rank : Nat) (x : HubMould) : Bool :=
  let flat := (m.runs x).zipIdx.flatMap fun e => match e.1.2.2.2.body with
    | .update w => ((updRanges e.1.2.2.2 w).dropLast.dropLast).flatMap fun r =>
        (m.places rank e.1.2.1 e.1.2.2.1 r.1.1 r.1.2 1).map fun a => (e.2, a, r.2)
    | _ => []
  flat.all fun a => flat.all fun b => a.1 == b.1 || !overlaps a.2.1 a.2.2 b.2.1 b.2.2

/-- Memory ranges that a hub item names (R213, R268). -/
def MouldSet.itemRanges (m : MouldSet) (rank h : Nat) (hd : Head) (execs : List Nat) (it : HubItem) : List (Nat × Nat) :=
  let n := packedBytes ((Fmt.ofCode it.fmt).getD .f32) it.elems
  let at' := fun (sel lit bank len : Nat) => (m.places rank hd execs sel lit bank).map fun a => (a, len)
  let own := at' it.sel it.addr it.bankSel n
  match it.body with
  | .fence _ _ _ => []
  | .plateClear slow plate count => [(sliceAddr h slow (plate * 4096), count * 4096)]
  | .node _ => []
  | .update w => ((updRanges it w).flatMap fun r => at' r.1.1 r.1.2 1 r.2) ++ at' w.lrt.1 w.lrt.2 0 8
  | .ladle wsel write wbank _ waddr _ => (if it.epIn = 0xFFF then own else []) ++ if write then at' wsel waddr wbank n else []
  | .portSend _ _ _ _ => if it.epIn = 0xFFF then own else []
  | .portRecv disp _ => if disp = 0 then [] else own
  | .ckptSend _ => own
  | .tier _ => own

/-- Every memory range that a set's moulds name on a rank: tagged ranges, and those of hub items and descriptors. -/
def MouldSet.rangesOf (m : MouldSet) (rank : Nat) : List (Nat × Nat) :=
  let role := m.roleOf rank
  m.taggedOf rank ++
  ((m.hubsOf role).flatMap fun x => (m.runs x.2.2).flatMap fun e => m.itemRanges rank x.2.1 e.2.1 e.2.2.1 e.2.2.2) ++
  (m.tiles.filter fun t => t.1.1 == role).flatMap fun t => t.2.descs.zipIdx.flatMap fun d => m.descRanges rank d.1 (m.addsOf t.2 d.2)

/-- Endpoints that an item of hub h takes in. -/
def HubItem.takesFrom (it : HubItem) : List Nat :=
  match it.body with
  | .node w => w.slots.flatMap fun k => if k.bkp then [k.primary, k.backup] else [k.primary]
  | .fence _ _ _ => []
  | .plateClear _ _ _ => []
  | .tier _ => if it.epIn = 0xFFF then [] else [it.epIn]
  | _ => if it.epIn = 0xFFF then [] else [it.epIn]

/-- Endpoints (hub, number) that an item of hub h sends to (R287, R335, R359). -/
def HubItem.sinks (it : HubItem) (h : Nat) : List (Nat × Nat) :=
  match it.body with
  | .node w => if it.epOut = 0xFFF then [] else [(w.outHub, it.epOut)]
  | .ladle _ _ _ _ _ outs => outs
  | .fence _ _ _ => []
  | .plateClear _ _ _ => []
  | _ => if it.epOut = 0xFFF then [] else [(h, it.epOut)]

/-- The endpoints that the tile descriptors of a role and class name on one side (R278): hub and endpoint, as a rank selects them. -/
def MouldSet.tileEnds (m : MouldSet) (role rank c : Nat) (src : Bool) : List (Nat × Nat) :=
  (m.tiles.filter fun t => t.1.1 == role && t.1.2.1 == c).flatMap fun t => t.2.descs.filterMap fun d =>
    let kind := if src then d.srcKind else d.dstKind
    let a := if src then m.resolve rank d.srcSel d.src else m.resolve rank d.dstSel d.dst
    if kind = 2 then a.map fun a => (t.1.2.2 / 6, a % 4096) else none

/-- Endpoints of one role and class as a rank runs them (R278, R288): each is taken in by one hub item or one tile descriptor and sent to by
one agent, is numbered at most 4,094, and its table word names the hub item that takes it in. The word of an endpoint that a tile takes
in names the item that sends to it (DEDUCED: R288 speaks of the defining item). -/
def MouldSet.endpointsOk (m : MouldSet) (role rank c : Nat) : Bool :=
  let hubs := (m.hubsOf role).filter fun x => x.1 == c
  let items := hubs.flatMap fun x => x.2.2.items.map fun e => (x.2.1, e)
  let ins := items.flatMap fun x => x.2.2.2.takesFrom.map fun i => ((x.1, i), x.2.1, x.2.2.1)
  let sends := items.flatMap fun x => (x.2.2.2.sinks x.1).map fun o => (o, x.2.1, x.2.2.1)
  let takes := m.tileEnds role rank c true
  let gives := m.tileEnds role rank c false
  let word := fun (e : Nat × Nat) => (((hubs.find? fun (x : Nat × Nat × HubMould) => x.2.1 == e.1).map fun (x : Nat × Nat × HubMould) => lget 0 x.2.2.endpoints e.2).getD 0).toNat
  let names := fun (e : Nat × Nat) (l p : Nat) => bits (word e) 63 61 == l && bits (word e) 47 0 == p
  let into := ins.map Prod.fst ++ takes
  let from' := sends.map Prod.fst ++ gives
  ((into ++ from').all fun e => decide (e.2 ≤ 4094) && into.count e == 1 && from'.count e == 1) &&
    (ins.all fun a => names a.1 a.2.1 a.2.2) && takes.all fun e => sends.any fun a => a.1 == e && names e a.2.1 a.2.2

/-- TREE_NODE items of every rank in a class: rank, resolved NODE, item, words (R337). -/
def MouldSet.nodes (m : MouldSet) (c : Nat) : List (Nat × Nat × HubItem × NodeWords) :=
  (List.range m.ranks).flatMap fun r => ((m.hubsOf (m.roleOf r)).filter fun x => x.1 == c).flatMap fun x =>
    x.2.2.items.filterMap fun e => match e.2.2.body with
      | .node w => some (r, ((m.resolve r e.2.2.peerSel w.node).getD w.node) % 65536, e.2.2, w)
      | _ => none

/-- Whether two items of one stream may share a resolved NODE (R338). -/
def sameNode (a b : Nat × Nat × HubItem × NodeWords) : Bool :=
  let x := a.2.2.2
  let y := b.2.2.2
  a.1 != b.1 && a.2.2.1.elems == b.2.2.1.elems && x.norm == y.norm && x.outWire == y.outWire && x.slots.length == y.slots.length &&
    x.final == y.final && x.gaunt == y.gaunt && x.gcmp == y.gcmp && x.shard == y.shard &&
    (x.slots.zip y.slots).all fun k => k.1.wire == k.2.wire && k.1.leaf == k.2.leaf && k.1.ltile == k.2.ltile

/-- No two TREE_NODE items of one reduction stream share a resolved NODE but the duplicates of R338 (R337). -/
def MouldSet.nodesOk (m : MouldSet) : Bool :=
  (List.range 9).all fun c =>
    let l := (m.nodes c).zipIdx
    l.all fun a => l.all fun b => a.2 == b.2 || a.1.2.2.1.op != b.1.2.2.1.op || a.1.2.1 != b.1.2.1 || sameNode a.1 b.1

/-- What of a hub mould no rank decides (R271, R274, R285). -/
def HubMould.ok (x : HubMould) (m : MouldSet) (c : Nat) : Bool :=
  (x.lists.all fun l => repeatsOk (c == 8) 0 l && l.all fun e => !e.head.fillerOk) && x.items.all fun e => e.2.2.ok m

/-- A hub mould on a rank (R231, R308, R312). -/
def State.hubMouldOk (s : State) (p : Placement) (m : MouldSet) (rank h : Nat) (own : Bool) (x : HubMould) : Bool :=
  ((m.runs x).all fun e => s.hubItemOk p m rank h own x.tagged e.1 e.2.1 e.2.2.1 e.2.2.2) && m.updApart rank x

/-- The fences of a tile's hub that list it, in order: epoch and token (R226, R286). -/
def MouldSet.fencesOf (m : MouldSet) (role c t : Nat) : List (Nat × Nat) :=
  ((m.hubsOf role).filter fun x => x.1 == c && x.2.1 == t / 6).flatMap fun x => (lget [] x.2.2.lists 0).filterMap fun e =>
    match e.body? with
    | some { body := .fence epoch tiles tok, .. } => if bit tiles t then some (epoch, tok) else none
    | _ => none

/-! ### Mould sets -/

/-- The class table (R263, R265). -/
def MouldSet.classesOk (m : MouldSet) : Bool :=
  m.classes.zipIdx.all fun c => !c.1.present || (decide (1 ≤ c.1.mbCount ∧ c.1.mbCount ≤ 4096) && (c.1.chunked == (c.2 == 8)) &&
    (c.2 == 8 || (c.1.chunkCap == 0 && c.1.expChunk == 0)))

/-- Mould areas (R268): each is STATIC, lies in its hub's slice, and overlaps no reserved area and no range that a mould of any set
names. -/
def MouldSet.areasOk (m : MouldSet) (p : Placement) (named : List (Nat × Nat)) : Bool :=
  m.areas.zipIdx.all fun a => a.1.2 == 0 || (inOne p.static a.1.1 a.1.2 && decide (a.2 * hbmSlice ≤ a.1.1 ∧ a.1.1 + a.1.2 ≤ (a.2 + 1) * hbmSlice) &&
    !touchesAny p.reserved a.1.1 a.1.2 && !touchesAny named a.1.1 a.1.2)

/-- Every range that the moulds of some sets name on any rank. -/
def namedRanges (sets : List MouldSet) : List (Nat × Nat) := sets.flatMap fun m => (List.range m.ranks).flatMap m.rangesOf

/-- Whether no two mould areas, of one set or of two, overlap (R268, R306). -/
def areasApart (sets : List MouldSet) : Bool :=
  let l := (sets.flatMap MouldSet.areas).zipIdx
  l.all fun a => l.all fun b => a.2 == b.2 || !overlaps a.1.1 a.1.2 b.1.1 b.1.2

/-- The roles and ranks of a set (R262, R266): every rank with its role, and every role no rank is bound to with no record. -/
def MouldSet.bound (m : MouldSet) : List (Nat × Nat) :=
  let own := (List.range m.ranks).map fun r => (m.roleOf r, r)
  own ++ ((List.range 64).filter fun r => own.all fun x => x.1 != r).map fun r => (r, m.ranks)

/-- The checks of a set's moulds as one rank runs them (R159, R206, R278 to R300, R308, R312). -/
def State.rankOk (s : State) (p : Placement) (m : MouldSet) (role rank : Nat) (own : Bool) : Bool :=
  ((List.range 9).all fun c => m.endpointsOk role rank c) &&
    ((m.tiles.filter fun t => t.1.1 == role).all fun t =>
      (t.2.launches.all fun l => launchesOk (m.fencesOf role t.1.2.1 t.1.2.2) l) &&
      (decide (m.ranks ≤ rank) || t.2.descs.zipIdx.all fun d =>
        let adds := m.addsOf t.2 d.2
        s.descOk p m rank t.2 d.1 adds && m.fillOk rank t.2 d.1 adds)) &&
    (decide (m.ranks ≤ rank) || (m.hubsOf role).all fun x => s.hubMouldOk p m rank x.2.1 own x.2.2)

/-- Every check of a mould set but its areas and features (R306), for every role and every rank bound to it; this device serves `rank`. -/
def State.setOk (s : State) (p : Placement) (m : MouldSet) (rank : Nat) : Bool :=
  m.contract == 1 && m.classesOk && (m.tiles.all fun t => t.2.ok) && (m.hubs.all fun x => x.2.ok m x.1.2.1) && m.nodesOk &&
    m.bound.all fun x => s.rankOk p m x.1 x.2 (x.2 == rank && decide (rank < m.ranks))

/-- The init set names exactly the tagged ranges of the default set (R493). -/
def sameTagged (a b : MouldSet) : Bool :=
  let t := fun (m : MouldSet) => m.hubs.flatMap fun x => x.2.tagged.map fun r => (x.1.1, x.1.2.2, r)
  (t a).all (fun x => decide (x ∈ t b)) && (t b).all fun x => decide (x ∈ t a)

/-- The scratch area of a rank's hub (R373): its place and size by the binding slot that the table names. -/
def MouldSet.scratchSize (m : MouldSet) (rank slot : Nat) : Nat := 2 ^ 20 * bits (lget 0 (lget [] m.bindings rank) slot).toNat 63 42
def MouldSet.scratchBase (m : MouldSet) (rank slot h : Nat) : Nat := bits (lget 0 (lget [] m.bindings rank) slot).toNat 41 0 + h * hbmSlice

/-- A re-shard table (R374), for every rank's scratch. -/
def reshardOk (p : Placement) (sets : List MouldSet) (r : Reshard) : Bool :=
  let set := fun (k : Nat) => (sets.find? fun m => m.mapping == k).getD {}
  let src := set r.fromMap
  let dst := set r.toMap
  let e := r.entries.zipIdx
  let lone := fun (f : ReshardEntry → Nat × Nat) => e.all fun a => e.all fun b => a.2 == b.2 || a.1.round != b.1.round || f a.1 != f b.1
  let tag := fun (m : MouldSet) (k : Nat) => (m.hubsOf (m.roleOf k)).flatMap fun x => x.2.2.tagged
  let hubOf := fun (a : Nat) => ((addrHome a).map Prod.fst).getD 8
  lone (fun x => (x.srcRank, hubOf x.src)) && lone (fun x => (x.dstRank, hubOf x.dst)) &&
    (r.entries.all fun x => decide (x.round < r.rounds) && inOne (tag src x.srcRank) x.src x.bytes && inOne (tag dst x.dstRank) x.dst x.bytes &&
      x.bytes % 32 == 0) &&
    ((List.range (max src.ranks dst.ranks)).all fun k =>
      let size := dst.scratchSize k r.scratchSlot
      ((r.entries.filter fun x => x.dstRank == k).all fun x => decide (x.bytes ≤ size)) &&
      (List.range 8).all fun h =>
        let a := dst.scratchBase k r.scratchSlot h
        !touchesAny p.reserved a size && !touchesAny (src.taggedOf k) a size && !touchesAny (dst.taggedOf k) a size) &&
    (r.entries.all fun x => r.entries.all fun y => decide (y.round ≤ x.round) || x.dstRank != y.srcRank || !overlaps x.dst x.bytes y.src y.bytes)

/-! ### Placement -/

/-- Hub h's share of the bank that a rank sends its partner (R213, R365, R456): the bytes of its CKPT_SEND items in a class. -/
def MouldSet.shareOf (m : MouldSet) (rank c h : Nat) : Nat :=
  (((m.hubsOf (m.roleOf rank)).filter fun x => x.1 == c && x.2.1 == h).flatMap fun x => x.2.2.items.map fun e => match e.2.2.body with
    | .ckptSend _ => e.2.2.elems
    | _ => 0).sum

/-- Whether every partner slot has the size of the share it receives (R213); a hub that sends none asks for none. -/
def slotsOk (p : Placement) (sets : List MouldSet) : Bool :=
  sets.all fun m => (List.range m.ranks).all fun r => (List.range 9).all fun c => (List.range 8).all fun h =>
    let n := m.shareOf r c h
    n == 0 || n == (lget {} p.hubs h).partner.2

/-- The PLACEMENT section (R213, R483, R484): areas 4 KiB aligned, in their hub's HBM slice, apart from each other, from mould areas and
from every range that a mould names; ranges in their hub's slices and in memory that is there. -/
def State.placementOk (s : State) (p : Placement) (areas : List (Nat × Nat)) : Bool :=
  p.hubs.zipIdx.all fun x =>
    let h := x.2
    let own := [x.1.fl0, x.1.fl1, x.1.spill, (x.1.partner.1, 2 * x.1.partner.2), x.1.trace].filter fun a => a.2 ≠ 0
    let sp := x.1.spill.2
    (own.all fun a => a.1 % 4096 == 0 && decide (h * hbmSlice ≤ a.1 ∧ a.1 + a.2 ≤ (h + 1) * hbmSlice)) &&
      (own.zipIdx.all fun a => own.zipIdx.all fun b => a.2 == b.2 || !overlaps a.1.1 a.1.2 b.1.1 b.1.2) &&
      (own.all fun a => !touchesAny areas a.1 a.2) && decide (2 ^ 20 ≤ sp ∧ sp ≤ 2 ^ 29) && sp % 2 ^ 18 == 0 &&
      x.1.ranges.all fun r => r.kind != 3 && r.size % 4096 == 0 && s.rangeOk r.base r.size &&
        (match addrHome r.base with | some (k, _, _) => k == h | none => false)

end Sys2Proof.Machine
end

