-- ==== Sys2Proof/Machine/P521.lean ====
section
/-! DEFINITION. ECDSA on P-521 with SHA-512 (R486, R500, R501) and the deterministic nonce of RFC 6979 (PRESUMED: the spec names
curve and standards and leaves their constants to them). -/
namespace Sys2Proof.Machine

/-- The field prime. -/
def pP : Nat := 2 ^ 521 - 1

/-- The order of the base point. -/
def pN : Nat := 0x1FFFFFFFFFFFFFFFFFFFFFFFFFFFFFFFFFFFFFFFFFFFFFFFFFFFFFFFFFFFFFFFF * 2 ^ 264 + 0xFA51868783BF2F966B7FCC0148F709A5D03BB5C9B8899C47AEBB6FB71E91386409

/-- The curve's constant b; its a is -3. -/
def pB : Nat := 0x51953EB9618E1C9A1F929A21A0B68540EEA2DA725B99B315F3B8B489918EF109 * 2 ^ 264 + 0xE156193951EC7E937B1652C0BD3BB1BF073573DF883D2C34F1EF451FD46B503F00

/-- The base point. -/
def pG : Nat × Nat :=
  (0xC6858E06B70404E9CD9E3ECB662395B4429C648139053FB521F828AF606B4D3D * 2 ^ 264 + 0xBAA14B5E77EFE75928FE1DC127A2FFA8DE3348B3C1856A429BF97E7E31C2E5BD66,
    0x11839296A789A3BC0045C8A5FB42C7D1BD998F54449579B446817AFBD17273E66 * 2 ^ 264 + 0x2C97EE72995EF42640C550B9013FAD0761353C7086A272C24088BE94769FD16650)

/-- a to the power of an exponent modulo m, by its bits from the lowest (fuel: bits). -/
def powMod (m : Nat) : Nat → Nat → Nat → Nat → Nat
  | 0, _, _, r => r
  | k + 1, a, e, r => powMod m k (a * a % m) (e / 2) (if e % 2 = 1 then r * a % m else r)

/-- Inverse modulo a prime of at most 521 bits. -/
def invMod (m a : Nat) : Nat := powMod m 521 (a % m) (m - 2) 1

/-- Sum of two points; none is the point at infinity. -/
def pAdd (x y : Option (Nat × Nat)) : Option (Nat × Nat) :=
  match x, y with
  | none, q => q
  | p, none => p
  | some (x1, y1), some (x2, y2) =>
    let sub := fun (a b : Nat) => (a + pP - b) % pP
    let fin := fun (l : Nat) => let x3 := sub (sub (l * l % pP) x1) x2; some (x3, sub (l * sub x1 x3 % pP) y1)
    if x1 = x2 then
      (if (y1 + y2) % pP = 0 then none else fin (sub (3 * x1 * x1 % pP) 3 * invMod pP (2 * y1) % pP))
    else fin (sub y2 y1 * invMod pP (sub x2 x1) % pP)

/-- k times a point (fuel: bits). -/
def pMul : Nat → Nat → Option (Nat × Nat) → Option (Nat × Nat)
  | 0, _, _ => none
  | f + 1, k, p => let r := pMul f (k / 2) (pAdd p p); if k % 2 = 1 then pAdd p r else r

/-- Whether a pair is a point of the curve. -/
def onCurve (q : Nat × Nat) : Bool :=
  decide (q.1 < pP) && decide (q.2 < pP) && q.2 * q.2 % pP == (q.1 * q.1 % pP * q.1 + (pP - 3) * q.1 + pB) % pP

/-- Verify a signature over a digest with a public key (FIPS 186-5). -/
def ecdsaVerify (q : Nat × Nat) (digest : List Byte) (r s : Nat) : Bool :=
  if !onCurve q || r = 0 || pN ≤ r || s = 0 || pN ≤ s then false
  else
    let w := invMod pN s
    let z := beNat digest
    match pAdd (pMul 521 (z * w % pN) (some pG)) (pMul 521 (r * w % pN) (some q)) with
    | none => false
    | some p => p.1 % pN == r

/-- The nonce of RFC 6979 for a private key and a digest: candidates until one lies in range (fuel: candidates). -/
def rfcNonce : Nat → List Byte → List Byte → Nat
  | 0, _, _ => 1
  | f + 1, k, v =>
    let v1 := hmac512 k v
    let v2 := hmac512 k v1
    let c := beNat (v1 ++ v2) / 2 ^ 503
    if c ≠ 0 && decide (c < pN) then c
    else let k' := hmac512 k (v2 ++ [0]); rfcNonce f k' (hmac512 k' v2)

/-- The first state of the generator of RFC 6979, then its nonce. -/
def nonceFor (d : Nat) (digest : List Byte) : Nat :=
  let x := beBytes 66 d ++ beBytes 66 (beNat digest % pN)
  let v := List.replicate 64 (1 : Byte)
  let k := hmac512 (List.replicate 64 0) (v ++ [0] ++ x)
  let v := hmac512 k v
  let k := hmac512 k (v ++ [1] ++ x)
  rfcNonce 64 k (hmac512 k v)

/-- Sign a digest (R501). -/
def ecdsaSign (d : Nat) (digest : List Byte) : Nat × Nat :=
  let k := nonceFor d digest
  let r := ((pMul 521 k (some pG)).map Prod.fst).getD 0 % pN
  (r, invMod pN k * (beNat digest + r * d) % pN)

end Sys2Proof.Machine
end

