-- ==== Sys2Proof/Machine/Panel.lean ====
section
/-! DEFINITION. The panel: D2D channels, their groups and ways (R416 to R428), routes between hubs (R429, R430), versions (R431 to
R433), spare tiles (R434 to R436), instruction stores (R248, R270) and map-out (R257). -/
namespace Sys2Proof.Machine

/-! ### Channels -/

/-- STATE of a trained channel (R441). -/
def Chan.stateNow (x : Chan) (c : Nat) : Nat :=
  if x.failed c then 3
  else if (x.tx.active c).length = chanMax c && (x.rx.active c).length = chanMax c then 1
  else 2

/-- One direction of a channel. -/
def Chan.dir (x : Chan) (rx : Bool) : ChanDir := if rx then x.rx else x.tx

/-- Change one direction of a channel. -/
def Chan.updDir (x : Chan) (rx : Bool) (f : ChanDir → ChanDir) : Chan := if rx then { x with rx := f x.rx } else { x with tx := f x.tx }

/-- Change a channel of a hub. -/
def State.updChan (s : State) (h c : Nat) (f : Chan → Chan) : State := s.updHub h fun x => x.setChan c (f (x.chan c))

/-- Change one direction of a channel; a hub-hub channel is a channel of both its hubs. -/
def State.updChanDir (s : State) (h c : Nat) (rx : Bool) (f : ChanDir → ChanDir) : State :=
  let s := s.updChan h c fun x => x.updDir rx f
  match chanPeer h c with
  | some p => s.updChan p (farChan c) fun x => x.updDir (!rx) f
  | none => s

/-! ### Ways -/

/-- Move one group to a way without any from the way with the most (R421). Fuel: ways. -/
def fixShares : Nat → List Nat → List Nat
  | 0, l => l
  | k + 1, l =>
    match l.zipIdx.find? fun x => x.1 == 0 with
    | none => l
    | some z =>
      let top := l.foldl max 0
      match l.zipIdx.find? fun x => x.1 == top with
      | none => l
      | some m => fixShares k ((l.set m.2 (top - 1)).set z.2 1)

/-- The groups of each way (R421), from the active groups and the weights. -/
def wayShares (a : Nat) (w : List Nat) : List Nat :=
  let t := w.sum
  if t = 0 then []
  else
    let left := a - (w.map fun x => a * x / t).sum
    let ahead := fun (x j : Nat) => (w.zipIdx.filter fun y =>
      decide (a * x % t < a * y.1 % t) || (a * y.1 % t == a * x % t && decide (y.2 < j))).length
    fixShares w.length (w.zipIdx.map fun x => a * x.1 / t + b2n (decide (ahead x.1 x.2 < left)))

/-! ### Routes between hubs -/

/-- Whether two adjacent hubs have a channel that works (R428). -/
def State.joined (s : State) (a b : Nat) : Bool :=
  (List.range 6).any fun i => chanPeer a (7 + i) = some b && !((s.hub a).chan (7 + i)).failed (7 + i)

/-- Whether every adjacency of a path from hub a works. -/
def State.pathJoined (s : State) : Nat → List Nat → Bool
  | _, [] => true
  | a, b :: t => s.joined a b && s.pathJoined b t

/-- Routes from hub a to hub b in the order of preference (R429): along its own row to the destination's column and then across the
rows, or across first and then along the other row. Within one row the detour runs along the other row and back (DEDUCED: R428 lets
a failed adjacency of a row detour). -/
def hubRoutes (a b : Nat) : List (List Nat) :=
  let cross := (a + 4) % 8 :: rowPath (1 - a / 4) (a % 4) (b % 4)
  [plainRoute a b, if a / 4 = b / 4 then cross ++ [b] else cross]

/-- The route from one hub to another, or none (R429, R430). -/
def State.hubPath (s : State) (a b : Nat) : Option (List Nat) := (hubRoutes a b).find? fun p => s.pathJoined a p

/-- Whether a hub reaches another (R430). -/
def State.hubReach (s : State) (a b : Nat) : Bool := (s.hubPath a b).isSome

/-- The crown computes the routes between hubs (R429): those that differ from the plain ones are listed. -/
def State.mapRoutes (s : State) : State :=
  let l := (List.range 64).filterMap fun k => match s.hubPath (k / 8) (k % 8) with
    | some p => if p = plainRoute (k / 8) (k % 8) then none else some (k, p)
    | none => none
  { s with loaded := { s.loaded with hubRoutes := l } }

/-! ### Way maps -/

/-- The channels that one way map stripes (R421): both of an adjacency as one set, the lower-numbered first. -/
def stripeOf (c : Nat) : List Nat := if 7 ≤ c && c < 13 then (if c % 2 = 1 then [c, c + 1] else [c - 1, c]) else [c]

/-- Active groups of a direction that its way map divides, as (channel, group), in their numbering (R419, R421, R428). -/
def State.activeSet (s : State) (h c : Nat) (rx : Bool) : List (Nat × Nat) :=
  (stripeOf c).flatMap fun d =>
    let x := (s.hub h).chan d
    if x.failed d then [] else ((x.dir rx).active d).map fun g => (d, g)

/-- Give each way its groups in order (R421): way 0 the lowest-numbered, way 1 the next. -/
def dealGroups : List Nat → List (Nat × Nat) → List (List (Nat × Nat))
  | [], _ => []
  | n :: t, l => l.take n :: dealGroups t (l.drop n)

/-- The ways of a direction as the way map binds them (R420): the control way, then up to 15 with the engines they join. The map of a
hub-hub channel's direction is that of the hub that sends. -/
def State.wayMapOf (s : State) (h c : Nat) (rx : Bool) : List (Nat × Option (Nat × Nat)) :=
  let m := match rx, chanPeer h c with
    | true, some p => Config.wayMap p (farChan c) true s.header.digest s.mouldSet.mapping s.role
    | _, _ => Config.wayMap h c (!rx) s.header.digest s.mouldSet.mapping s.role
  ((m.1.val + 1, none) :: m.2.map fun w => (w.1.val + 1, some w.2)).take 16

/-- The ways of a direction with their groups (R420, R421). -/
def State.waysOf (s : State) (h c : Nat) (rx : Bool) : List Way :=
  let a := s.activeSet h c rx
  let m := s.wayMapOf h c rx
  (m.zip (dealGroups (wayShares a.length (m.map Prod.fst)) a)).map fun w => { weight := w.1.1, ends := w.1.2, groups := w.2 }

/-- The group on which handshake word i of a way goes (R422): the (i mod k)-th of its k. The receiver takes words in the same
rotation, so a way delivers its words in the order sent. -/
def Way.groupOf (w : Way) (i : Nat) : Option (Nat × Nat) := w.groups[i % w.groups.length]?

/-- Compute way maps and striping of every channel, and the routes (R420 to R423, R429). The ways of an adjacency stand with its
lower-numbered channel. -/
def State.mapWays (s : State) : State :=
  (s.eachHub fun h x =>
    (List.range 14).foldl (fun x c =>
      if !hasChan h c || (stripeOf c).head? ≠ some c then x
      else
        let y := x.chan c
        x.setChan c { y with tx := { y.tx with ways := s.waysOf h c false }, rx := { y.rx with ways := s.waysOf h c true } }) x).mapRoutes

/-! ### Errors on a channel -/

/-- The die at the receiving end of a direction of a channel (R446 codes), and the channel's number there. -/
def State.chanDie (s : State) (h c : Nat) (rx : Bool) : Option (Nat × Nat) :=
  if rx then some (hubDie h, c)
  else if c < 7 then (s.logical (7 * h + c)).map fun t => (t, 0xF)
  else if c = 13 then some (56, 13)
  else (chanPeer h c).map fun p => (hubDie p, farChan c)

/-- Add to a dross counter of a die by its R446 code. -/
def State.dieDross (s : State) (die cls n : Nat) : State :=
  if die < 48 then s.tileDross (s.phys die) cls n else if die < 56 then s.hubDross (die - 48) cls n else s.crownDross cls n

/-- A fault of a die: the crown's own is handled at once. -/
def State.dieFault (s : State) (die code : Nat) (fs : List (Nat × Nat)) : State :=
  if die = 56 then s.crownFault code fs else s.report die code fs

/-- Whether an error can be one of a die's receiving direction on a hub's channel: true for the hub's own. -/
def State.errorDir (s : State) (die h c : Nat) : Option Bool :=
  if !hasChan h c then none
  else if die = hubDie h then some true
  else if (s.chanDie h c false).map Prod.fst = some die then some false
  else none

/-- Record an error of an active group (R424, R425). -/
def State.chanError (s : State) (die h c : Nat) (rx : Bool) (cause g : Nat) : State :=
  let num := ((s.chanDie h c rx).map Prod.snd).getD 0xF
  let s := s.updChanDir h c rx fun d => { d with once := d.once ++ [g] }
  let mark := fun (x : Chan) => { x with fault := true, parityGroup := BitVec.ofNat 8 g }
  let s := match rx, chanPeer h c with
    | false, some p => s.updChan p (farChan c) mark
    | _, _ => s.updChan h c mark
  (s.dieDross die 0x0D 1).dieFault die 0x05 [(64, s.stepNo), (6, die), (4, num), (2, cause), (7, g)]

/-- D2D_PARITY_ERROR (R424): the lowest-numbered active group of those in error is recorded. -/
def execD2dParityError (die : Fin 57) (hb : Fin 8) (chan : Fin 14) (groups : List Nat) (s : State) : Out :=
  let h := hb.val
  let c := chan.val
  .next (match s.errorDir die.val h c with
    | none => s
    | some rx => match (((s.hub h).chan c).dir rx).active c |>.find? fun g => decide (g ∈ groups) with
      | none => s
      | some g => s.chanError die.val h c rx 0 g)

/-- D2D_ACK_TIMEOUT (R425). -/
def execD2dAckTimeout (die : Fin 57) (hb : Fin 8) (chan : Fin 14) (group : Nat) (s : State) : Out :=
  let h := hb.val
  let c := chan.val
  .next (match s.errorDir die.val h c with
    | none => s
    | some rx => if group ∈ (((s.hub h).chan c).dir rx).active c then s.chanError die.val h c rx 1 group else s)

/-- Mark groups out in one direction (R426, R427): each counts as failed, and each spare that becomes active as spared, at the
receiving die. -/
def State.markOut (s : State) (h c : Nat) (rx : Bool) (gs : List Nat) : State :=
  let d := ((s.hub h).chan c).dir rx
  let gone := (d.good c).filter fun g => decide (g ∈ gs)
  if gone = [] then s
  else
    let d' := { d with out := d.out ++ gone }
    let spared := (d'.active c).filter fun g => decide (g ∉ d.active c)
    let s := s.updChanDir h c rx fun _ => d'
    match s.chanDie h c rx with
    | some (die, _) => (s.dieDross die 0x0F gone.length).dieDross die 0x0E spared.length
    | none => (s.tileDross (7 * h + c) 0x0F gone.length).tileDross (7 * h + c) 0x0E spared.length

/-- SPARE_GROUP_ERROR (R426): a spare that errs or stalls is marked out at once; this is no fault. -/
def execSpareGroupError (hb : Fin 8) (chan : Fin 14) (rx : Bool) (group : Nat) (s : State) : Out :=
  let h := hb.val
  let c := chan.val
  .next (if hasChan h c && decide (group ∈ (((s.hub h).chan c).dir rx).spares c) then s.markOut h c rx [group] else s)

/-- Retrain every channel (R427): groups that fail, and groups recorded twice since reset, are marked out. A crown line left
without a group is the D2D fault of R428. -/
def State.retrain (s : State) (fails : GroupFails) : State :=
  let dirs := (List.range 8).flatMap fun h => ((List.range 14).filter fun c => hasChan h c &&
    (match chanPeer h c with | some p => decide (h < p) | none => true)).flatMap fun c => [(h, c, false), (h, c, true)]
  let dead := (List.range 8).filter fun h => ((s.hub h).chan 13).failed 13
  let s := dirs.foldl (fun s (d : Nat × Nat × Bool) =>
    let x := ((s.hub d.1).chan d.2.1).dir d.2.2
    let bad := (fails.filter fun f => f.1 == d.1 && f.2.1 == d.2.1 && f.2.2.1 == d.2.2).map fun f => f.2.2.2
    s.markOut d.1 d.2.1 d.2.2 (bad ++ x.once.filter fun g => decide (2 ≤ x.once.count g))) s
  let s := (List.range 8).foldl (fun s h =>
    if ((s.hub h).chan 13).failed 13 && decide (h ∉ dead) then
      s.crownFault 0x05 [(64, s.stepNo), (6, 56), (4, 13), (2, 2), (7, 0x7F)] else s) s
  s.eachChan fun _ c y => { y with state := y.stateNow c }

/-! ### Versions -/

/-- Whether every channel of the package that has good groups has its version (R431). -/
def State.negotiated (s : State) : Bool :=
  (List.range 8).all fun h => (List.range 14).all fun c =>
    let x := (s.hub h).chan c
    !hasChan h c || x.version ≠ 0 || x.tx.good c = [] || x.rx.good c = []

/-- VER (R431, R433): the channel runs at the lower version with the common features; a die of another contract version refuses
start. -/
def execVer (hb : Fin 8) (chan : Fin 14) (b : VerBody) (s : State) : Out :=
  let h := hb.val
  let c := chan.val
  let far := if c < 7 then 0 else if c = 13 then 2 else 1
  .next (if !hasChan h c || b.kind.toNat ≠ far || !s.startup.done.contains 5 || s.startup.service then s
    else
      let agree := fun (x : Chan) => { x with version := if b.version.toNat < 1 then b.version else 1, features := b.features &&& (Config.features 1).setWidth 64 }
      let s := s.updChan h c agree
      let s := if b.contract.toNat = s.header.contract || s.startup.refusal ≠ 0 || 11 ∈ s.startup.done then s
        else { s with startup := { s.startup with refusal := 0x09 } }
      if s.negotiated && s.startup.refusal = 0 && 6 ∉ s.startup.done then { s with startup := { s.startup with done := addOnce s.startup.done 6 } }
      else s)

/-! ### Degraded packages -/

/-- Features a mould set of the pattern requires. -/
def State.needed (s : State) : W64 := s.loaded.sets.foldl (fun f m => f ||| m.features) 0

/-- Whether every channel has the features that the pattern needs (R432). -/
def State.featuresMet (s : State) : Bool :=
  (List.range 8).all fun h => (List.range 14).all fun c =>
    !hasChan h c || ((s.hub h).chan c).features &&& s.needed == s.needed

/-! ### Spare tiles -/

/-- HUB_TILE_MAP entry of a position: mapped, excluded, logical tile within the flask (R442). -/
def State.posOf (s : State) (h k : Nat) : Bool × Bool × Nat := tget (false, false, 0) (s.hub h).tileMap k

/-- Whether a position is usable (R434). -/
def State.usable (s : State) (h k : Nat) : Bool :=
  (s.tile (7 * h + k)).selfTestOk && !(s.posOf h k).2.1 && !((s.hub h).chan k).failed k

/-- Whether the package is degraded (R430). -/
def State.isDegraded (s : State) : Bool :=
  ((List.range 8).any fun h => decide (((List.range 7).filter fun k => s.usable h k).length < 6) || ((s.hub h).chan 13).failed 13) ||
    (List.range 8).any (fun a => (List.range 8).any fun b => !s.hubReach a b) || !s.featuresMet

/-- Map one flask (R434 to R436): a position whose channel has failed is excluded; a tile that moves starts with its riser tags
empty. The event names the position left and the logical tile that moved off it. -/
def State.mapFlask (s : State) (h : Nat) : State :=
  let old := (s.hub h).tileMap
  let bad := (List.range 7).filter fun k => ((s.hub h).chan k).failed k
  let free := ((List.range 7).filter fun k => s.usable h k).take 6
  let entry := fun (k : Nat) => match free.zipIdx.find? fun x => x.1 == k with
    | some x => (true, false, x.2)
    | none => (false, (s.posOf h k).2.1 || decide (k ∈ bad), 0)
  let map : Tbl (Bool × Bool × Nat) := (List.range 7).map fun k => (k, entry k)
  let lost := (List.range 7).filter fun k => (s.posOf h k).1 && decide (k ∈ bad)
  let moved := free.zipIdx.filter fun x => !(s.posOf h x.1).1 || (s.posOf h x.1).2.2 != x.2
  let place := fun (k : Nat) => (tget (false, false, 0) old k).2.2
  let s := s.updHub h fun x => { x with tileMap := map }
  let s := lost.foldl (fun s k =>
    (s.hubDross h 0x0F 1).logEvent 0x0B (hubDie h) 0 (body [(6, 7 * h + k), (6, 6 * h + place k)])) s
  moved.foldl (fun s x => s.updTile (7 * h + x.1) fun y => { y with risers := [] }) s

/-- Map every flask. -/
def State.mapTilesOver (s : State) : State := (List.range 8).foldl State.mapFlask s

/-- Write every instruction store from its image of the mapping in force (R248, R270); one without an image is cleared. -/
def State.writeStores (s : State) : State :=
  (List.range 48).foldl (fun s t => (List.range 4).foldl (fun s k =>
    match s.mouldSet.images.find? fun x => x.1 == (s.role, t, k) with
    | none => if (s.cluster t k).istore = [] then s else s.updCluster t k fun c => { c with istore := [], istoreErr := [] }
    | some (_, ws) => s.updCluster t k fun c =>
        { c with istore := ws.zipIdx.foldl (fun (m : Tbl W64) w => tput 0 m w.2 w.1) [], istoreErr := [] }) s) s

/-- What follows a change of the mould set in force (R270, R305, R423): its instruction stores and its way maps. -/
def State.loadMoulds (s : State) : State := s.writeStores.mapWays

/-! ### Map-out -/

/-- Process a LISTED entry (R257): its row is repaired onto a spare row of the bank, corrected, or poisoned where a sector was
uncorrectable. Its decodes count, and an uncorrectable sector is listed (R245, R250). Sectors without an error keep their bits. -/
def State.repairRow (s : State) (h i : Nat) : State :=
  match (s.hub h).mapout[i]? with
  | none => s
  | some e =>
    let r := s.readSram h 2 (· == i)
    if e.state ≠ 0 || r.2 then r.1
    else
      let s := r.1
      let place := bankOf (sliceAddr h e.slow (32 * e.sector))
      let used := tget 0 (s.hub h).repaired place.1
      let put := fun (s : State) (n : Nat) => s.updHub h fun x => { x with mapout := lset x.mapout i { e with state := n } }
      if Config.spareRows ≤ used then put s 2
      else
        let inRow := fun (a : Nat) => match addrHome a with
          | some (h', slow, _) => h' == h && slow == e.slow && bankOf a == place
          | none => false
        let hurt := ((s.memErr.map Prod.fst ++ s.poison.map Prod.fst).filter inRow).foldl addOnce []
        let s := hurt.foldl (fun s a =>
          let d := s.readMem a 32
          let s := s.countDecodes a d.2 2
          match d.1 with
          | none => { s with memErr := terase s.memErr a, poison := tset s.poison a true }
          | some b => s.writeSector a b) s
        put (s.updHub h fun x => { x.writeSram 2 (· == i) with repaired := tset x.repaired place.1 (used + 1) }) 1

/-- Process the map-out list of every hub (R257): up to its 64 entries, those that the repairs themselves list (R245) included. -/
def State.repairAll (s : State) : State :=
  (List.range 8).foldl (fun s h => (List.range 64).foldl (fun s i => s.repairRow h i) s) s

end Sys2Proof.Machine
end

