-- ==== Sys2Proof/Machine/Steps.lean ====
section
/-! DEFINITION. The life of a step at the crown (R18 to R23): manifest checks (R291, R524), opening (R298, R318), the deadline (R302,
R303), votes (R366 to R368), outcomes and step records (R369, R370, R463, R526), and boundaries (R305, R372 to R377). -/
namespace Sys2Proof.Machine

/-! ### The manifest -/

/-- The feed of step g. -/
def State.feed (s : State) (g : Nat) : Feed := tget {} s.crown.feeds g

/-- Whether a feed's manifest and every segment are there (R525). -/
def Feed.whole (f : Feed) : Bool :=
  match f.manifest with
  | none => false
  | some m => (List.range m.segs.length).all fun i => tget false f.complete i

/-- Hub-reserved areas of a hub (R213, R462): far-link buffers, spill log, two partner slots, trace area. -/
def HubPlace.reserved (p : HubPlace) : List (Nat × Nat) :=
  [p.fl0, p.fl1, p.spill, (p.partner.1, 2 * p.partner.2), p.trace]

/-- Whether a byte range lies within one hub's HBM slice. -/
def inHbmSlice (a len : Nat) : Bool := decide (a + len ≤ 8 * hbmSlice) && (len = 0 || a / hbmSlice == (a + len - 1) / hbmSlice)

/-- Ranges a segment must not touch (R524): tagged ranges of the class, hub-reserved areas, mould areas. -/
def State.forbidden (s : State) (cls : Nat) : List (Nat × Nat) :=
  (List.range 8).flatMap fun h =>
    ((s.hubMouldOf cls h).tagged.flatMap fun r => [r, (r.1 + s.bankSpan, r.2)]) ++
    (lget {} s.loaded.placement.hubs h).reserved ++ (s.loaded.sets.flatMap fun m => m.areas)

/-- Whether segment i breaks R524; of two that overlap, the later one does. -/
def State.segmentBad (s : State) (m : Manifest) (i : Nat) : Bool :=
  let g := lget (0, 0, 0) m.segs i
  g.1 % 32 != 0 || !inHbmSlice g.1 g.2.2 || ((s.forbidden m.cls).any fun r => overlaps g.1 g.2.2 r.1 r.2) ||
    ((m.segs.take i).any fun q => overlaps g.1 g.2.2 q.1 q.2.2)

/-- Chunks of a manifest in class 8 (R291): the sum of ceil(length / MAX_LEN); 0 in another class. -/
def State.chunkCount (s : State) (m : Manifest) : Nat :=
  let c := lget {} s.mouldSet.classes m.cls
  if m.cls = 8 && c.maxLen ≠ 0 then (m.mbs.map fun l => cdiv l c.maxLen).sum else 0

/-- The manifest checks (R291, R524): the first that fails, with the micro-batch or segment concerned (R572). -/
def State.manifestCheck (s : State) (m : Manifest) : Option (Nat × Nat) :=
  let c := lget {} s.mouldSet.classes m.cls
  if 8 < m.cls || !c.present then some (0, 0)
  else if m.mbs.length ≠ c.mbCount then some (1, 0)
  else if m.cls = 8 && decide (c.chunkCap < s.chunkCount m) then some (4, 0)
  else match (if m.cls = 8 then none else m.mbs.zipIdx.find? fun l => decide (c.maxLen < l.1)) with
    | some l => some (2, l.2)
    | none =>
      if c.tokenCap < m.mbs.sum then some (3, 0)
      else if m.segs.length = 0 || 1024 < m.segs.length then some (5, 0)
      else ((List.range m.segs.length).find? fun i => s.segmentBad m i).map fun i => (5, i)

/-- BATCH_DIGEST of a feed (R526): the manifest's bytes, then every segment's in segment order. -/
def State.feedDigest (s : State) (m : Manifest) : W64 :=
  m.segs.foldl (fun c g => crc64From c (readBytes s.mem g.1 g.2.2)) (crc64 m.raw)

/-! ### Opening -/

/-- What a riser prologue leaves to do at step open (R298): the risers that do not hold FINAL(C), and their kicks. -/
def State.openTile (s : State) (t : Nat) : State :=
  let m := s.tileMould t
  let x := s.ltile t
  let pro := (m.risers.zipIdx.filter fun r => r.1.prologue != 0x1FFF && tget .empty x.risers r.2 != .final s.readGen)
  let x := { x with prologue := pro.map Prod.snd }
  let x := pro.foldl (fun (x : Tile) r =>
    let d := lget {} m.descs r.1.prologue
    let e := 2 * d.cluster + d.engine
    x.setEngine e { x.engine e with kicks := (x.engine e).kicks ++ [{ pro := true, desc := r.1.prologue }] }) x
  s.updLtile t fun _ => x

/-- Read requests of a tile's list as it reads ahead (R269): its bytes in pieces of 256 B, each with the words it completes. -/
def listPieces : Nat → Nat → Nat → Nat → List (Nat × Nat × Nat)
  | 0, _, _, _ => []
  | k + 1, base, size, off =>
    if size ≤ off then []
    else
      let n := min (size - off) (256 - (base + off) % 256)
      (base + off, n, (off + n) / 8) :: listPieces k base size (off + n)

/-- Ask for the lists of a tile (R269). -/
def State.readLists (s : State) (t : Nat) : State :=
  (s.tileMould t).listAt.zipIdx.foldl (fun s l =>
    (listPieces (l.1.2 / 256 + 2) l.1.1 l.1.2 0).foldl (fun s p =>
      s.pushReq (t / 6) ingressMould { agent := .listRead t l.2 p.2.2, kind := .read p.2.1, addr := p.1 }) s) s

/-- Endpoints through which checkpoint streams of an earlier commit still run. -/
def State.ckptEps (s : State) (h : Nat) : List Nat :=
  (s.hub h).ckpt.flatMap fun k => (s.ckptItems k.2.1 h).map fun x => x.2.epOut

/-- Open a step on every die (R18, R72, R117, R140, R285): all that belongs to one step starts anew. -/
def State.openWork (s : State) (o : OpenStep) : State :=
  let s := s.mapTiles Tile.cleared
  let s := s.eachHub fun h x =>
    let keep := s.ckptEps h
    { x.cleared with eps := x.eps.filter (fun e => decide (e.1 ∈ keep)), updStarted := 0, updDone := [], late := 0, traceCount := []
                     peerDig := x.peerDig.filter fun d => decide (o.step ≤ d.2.1) }
  let s := s.updCrown fun c => { c with openStep := some o, voted := none, held := none, lossVals := [] }
  let s := { s with power := { s.power with pSum := (0, 0) } }
  let s := (List.range 48).foldl (fun s t => (s.openTile t).readLists t) s
  s.resumeRx

/-- The loss-scale check of step open (R318). -/
def State.checkScales (s : State) : State :=
  (List.range 8).foldl (fun s h => (s.hubList h 2).zipIdx.foldl (fun s e => match e.1 with
    | .item _ it => match it.body with
      | .update w =>
        if scaleOk (s.lossScale w) then s
        else s.report (hubDie h) 0x13 [(64, s.stepNo), (3, h), (16, e.2), (32, (s.lossScale w).toNat)]
      | _ => s
    | .rbegin _ _ _ _ => s
    | .rend _ => s) s) s

/-- Whether the crown may open a step (R18, R22, R23): a job runs on this rank, the last outcome is applied, no relabel or re-shard
waits, and no checkpoint of the bank to be written still runs. -/
def State.mayOpen (s : State) : Bool :=
  let c := s.crown
  c.job == .active && c.rstate == .running && c.openStep.isNone && !c.deferring && !c.relabel && c.reshard.isNone &&
    decide (c.rankNow.toNat < s.mouldSet.ranks) && !s.power.entering && !s.power.mitten && !s.power.waking &&
    s.hubs.all fun e => (e.2.ckpt.all fun k => decide (c.gen + 1 < k.1 + 2)) &&
      e.2.ports.all fun p => p.2.tx.all fun t => t.kind != 1 || decide (c.gen + 1 < t.step + 2)

/-- STEP_OPEN (R18, R291, R318, R525): once the feed of the next step is complete, its manifest is checked, and the step opens; a manifest
that fails a check is the MANIFEST fault. -/
def execStepOpen (s : State) : Out :=
  .next (if !s.mayOpen then s
    else
      let g := s.crown.gen + 1
      match (s.feed g).manifest with
      | none => s
      | some m =>
        if !(s.feed g).whole then s
        else match s.manifestCheck m with
          | some (k, i) => s.crownFault 0x12 [(64, g), (3, k), (16, i)]
          | none =>
            let o : OpenStep :=
              { step := g, cls := m.cls, chunks := s.chunkCount m, startNs := BitVec.ofNat 64 s.issueNs, mapping := s.crown.mapping }
            let s := s.updCrown fun c => { c with batchDigest := s.feedDigest m, priorIntact := false }
            (s.openWork o).checkScales)

/-! ### The deadline -/

/-- Expected time of a class with n chunks (R302). -/
def ClassEntry.expected (c : ClassEntry) (n : Nat) : Nat := c.expBase + n * c.expChunk

/-- The deadline in force, with the class and the chunks that a record names (R302, R493, R572). -/
def State.deadlineNow (s : State) : Nat × Nat × Nat :=
  let f := s.mouldSet.step.deadlineFactor
  let cs := s.mouldSet.classes
  let worst := ((List.range 9).map fun i =>
    let c := lget {} cs i
    if !c.present then 0 else if i = 8 then c.expected c.chunkCap else c.expBase).foldl max 0
  match s.crown.openStep with
  | some o => (f * (lget {} cs o.cls).expected (if o.cls = 8 then o.chunks else 0), o.cls, o.chunks)
  | none => match (s.feed (s.crown.gen + 1)).manifest with
    | some m =>
      if (s.manifestCheck m).isNone then (f * (lget {} cs m.cls).expected (s.chunkCount m), m.cls, s.chunkCount m) else (f * worst, 0xF, 0)
    | none => (f * worst, 0xF, 0)

/-- STEP_DEADLINE (R303, R304): the deadline passes before the crown holds the outcome. -/
def execStepDeadline (s : State) : Out :=
  .next (if !s.crown.deadline then s
    else
      let d := s.deadlineNow
      (s.updCrown fun c => { c with deadline := false }).crownFault 0x08 [(64, s.stepNo), (4, d.2.1), (16, d.2.2), (64, d.1)])

/-! ### Tags -/

/-- At COMMIT every PROV(g) tag becomes FINAL(g) (R297). -/
def finalTags (g : Nat) (t : Tbl Tag) : Tbl Tag := t.map fun (e : Nat × Tag) => if e.2 = .prov g then (e.1, .final g) else e

/-- The tags of one hub after a commit boundary without a step: FINAL(g) in bank g & 1, EMPTY in the other (R297, R313, R377). -/
def State.bankTags (s : State) (h g : Nat) : State :=
  let t := (s.taggedRanges h).zipIdx.map fun r => (2 * r.2 + g % 2, Tag.final g)
  s.updHub h fun x => { x with tags := t, covered := [], badSeen := [] }

/-- Whether every tagged range of bank g & 1 holds PROV(g) (R311): the first hub and entry that does not. -/
def State.unwritten (s : State) (g : Nat) : Option (Nat × Nat) :=
  (List.range 8).findSome? fun h =>
    ((s.taggedRanges h).zipIdx.find? fun r => tget .empty (s.hub h).tags (2 * r.2 + g % 2) != .prov g).map fun r => (h, r.2)

/-! ### Boundaries -/

/-- Suspend the job at the boundary of step AFTER, with mitten where asked (R518, R551). -/
def State.suspendAt (s : State) (g : Nat) : State :=
  match s.crown.suspend with
  | none => s
  | some (after, mitten) =>
    if g < after then s
    else
      let s := s.updCrown fun c => { c with suspend := none, job := .suspended, deadline := false }
      if mitten then { s with power := { s.power with entering := true } } else s

/-- A mould set by its mapping. -/
def State.setOf (s : State) (m : Nat) : MouldSet := (s.loaded.sets.find? fun x => x.mapping == m).getD {}

/-- Binding slot n of this rank in a mapping. -/
def State.slotOf (s : State) (m n : Nat) : Nat := (lget 0 (lget [] (s.setOf m).bindings s.crown.rankNow.toNat) n).toNat

/-- The re-shard that runs: its table, and how far it is. -/
def State.reshardTable (s : State) : Reshard := match s.crown.reshard with | some r => lget {} s.loaded.reshards r.1 | none => {}

/-- The scratch of hub h of a rank in mapping TO (R373). -/
def State.scratch (s : State) (t : Reshard) (rank h : Nat) : Nat :=
  (lget 0 (lget [] (s.setOf t.toMap).bindings rank) t.scratchSlot).toNat % 2 ^ 42 + h * hbmSlice

/-- The hub whose slice holds an address (R203, R375). -/
def hubOfAddr (a : Nat) : Nat := ((addrHome a).map Prod.fst).getD 0

/-- One entry of a send phase (R375): into the own scratch, or to the scratch of the destination rank as a stream. -/
def State.sendEntry (s : State) (t : Reshard) (e : ReshardEntry × Nat) : State :=
  let src := e.1.src + s.crown.gen % 2 * s.slotOf t.fromMap 47
  let h := hubOfAddr src
  let d := hubOfAddr e.1.dst
  match s.agentRead h 0x3 src e.1.bytes with
  | (none, s) => s
  | (some b, s) =>
    if e.1.dstRank = s.crown.rankNow.toNat then
      (s.agentWrite d (s.scratch t e.1.dstRank d) b).updCrown fun c => { c with reshardIn := addOnce c.reshardIn e.2 }
    else match s.routePort e.1.dstRank with
      | none => s.streamFault h 6 0 e.1.dstRank 0xFFFF
      | some (ph, pm) =>
        s.sendStream ph pm { step := s.crown.gen, kind := 1, dst := e.1.dstRank, hub := d, fmt := 0xF, op := e.2, elems := b.length
                             win := 0xFFFF, offset := s.scratch t e.1.dstRank d } b (some (.final s.crown.gen))

/-- One entry of a place phase (R375): from the scratch to its place in the committed bank. -/
def State.placeEntry (s : State) (t : Reshard) (e : ReshardEntry) : State :=
  let d := hubOfAddr e.dst
  match s.agentRead d 0x3 (s.scratch t e.dstRank d) e.bytes with
  | (none, s) => s
  | (some b, s) => s.agentWrite d (e.dst + s.crown.gen % 2 * s.slotOf t.toMap 47) b

/-- Run this device's part of the phase that the boundary opens (R375). -/
def State.runPhase (s : State) : State :=
  match s.crown.reshard with
  | none => s
  | some (_, round, place) =>
    let t := s.reshardTable
    let me := s.crown.rankNow.toNat
    let mine := t.entries.zipIdx.filter fun e => e.1.round == round
    if place then (mine.filter fun e => e.1.dstRank == me).foldl (fun s e => s.placeEntry t e.1) s
    else (mine.filter fun e => e.1.srcRank == me).foldl (fun s e => s.sendEntry t e) s

/-- Whether a send phase has brought this device all that is for it. -/
def State.phaseIn (s : State) : Bool :=
  match s.crown.reshard with
  | none => false
  | some (_, round, place) =>
    place || s.reshardTable.entries.zipIdx.all fun e =>
      e.1.round != round || e.1.dstRank != s.crown.rankNow.toNat || decide (e.2 ∈ s.crown.reshardIn)

/-- Serve accepted requests in order until no STATIC rewrite holds a slot (fuel: slots). -/
def State.serveStatic (s : State) (h : Nat) : Nat → State
  | 0 => s
  | k + 1 => if (s.hub h).slots.any fun z => z.req.kind = .rewrite then (s.serveOldest h).serveStatic h k else s

/-- Complete the STATIC rewrite that an earlier commit began: it ends before the next checkpoint begins (R244). -/
def State.finishRewrite (s : State) (h : Nat) : State :=
  let s := s.serveStatic h (s.hub h).slots.length
  let left := tget [] (s.hub h).ingress queueStatic
  let s := left.foldl (fun s r => (s.settle h r.addr 32).serveRewrite h r.addr) s
  s.updHub h fun x => { x with ingress := tput [] x.ingress queueStatic [] }

/-- Start the checkpoint of a generation (R244, R290, R377, R457): the CKPT_SEND items of a class, one after the other on each hub. -/
def State.startCkpt (s : State) (g cls : Nat) : State :=
  ((List.range 8).foldl State.finishRewrite s).eachHub fun _ x => { x with ckpt := x.ckpt ++ [(g, cls, 0)] }

/-- What the end of a re-shard leaves (R377): mapping TO with its instruction stores (R270, R305), its tags, one checkpoint, and the
switch complete. -/
def State.endReshard (s : State) : State :=
  let t := s.reshardTable
  let s := (s.updCrown fun c => { c with reshard := none, mapping := t.toMap, phaseDone := [], reshardIn := [] }).loadMoulds
  let s := (List.range 8).foldl (fun s h => s.bankTags h s.crown.gen) s
  let s := s.startCkpt s.crown.gen s.cls
  let s := match s.crown.switch with
    | some (h, _, _) => (s.updCrown fun c => { c with switch := none }).complete h stOk 0 0
    | none => s
  s.suspendAt s.crown.gen

/-- A phase boundary takes effect on this device (R375): round ROUNDS ends the re-shard. -/
def State.openPhase (s : State) (round : Nat) (place : Bool) : State :=
  match s.crown.reshard with
  | none => s
  | some (i, _, _) =>
    let s := s.updCrown fun c => { c with reshard := some (i, round, place) }
    if s.reshardTable.rounds ≤ round then s.endReshard else s.runPhase

/-- Announce a phase boundary to every other rank (R375). -/
def State.announcePhase (s : State) (round : Nat) (place : Bool) : State :=
  let body : PhaseBody := { round := BitVec.ofNat 16 round, place := place }
  s.otherRanks.foldl (fun s r => s.sendPrio r s.crown.gen (.phase body)) s

/-- A PHASE is taken (R375, R376): each crown records the boundary it names. Before OPEN that is all. -/
def State.onPhase (s : State) (round : Nat) (place : Bool) : State :=
  if s.crown.rstate = .running then s.openPhase round place
  else s.updCrown fun c => { c with reshard := c.reshard.map fun r => (r.1, round, place), phaseHeld := true }

/-- OPEN after a restart during a re-shard (R376): it goes on from the last boundary that the coordinator announced. The coordinator
announces it again, since a device that aborted may have missed it; any other device waits for that announcement. -/
def State.resumeReshard (s : State) : State :=
  match s.crown.reshard with
  | none => s
  | some (_, round, place) =>
    let held := s.crown.phaseHeld
    let s := s.updCrown fun c => { c with phaseHeld := false }
    if s.isCoord then (s.announcePhase round place).openPhase round place
    else if held then s.openPhase round place
    else s

/-- The boundary of step g (R305, R372, R518): a switch with its re-shard first, then a suspend. now is false while a restart holds
the work back until OPEN. -/
def State.boundary (s : State) (g : Nat) (now : Bool) : State :=
  match s.crown.switch with
  | none => s.suspendAt g
  | some (h, after, m) =>
    if g < after then s.suspendAt g
    else match s.loaded.reshards.zipIdx.find? fun t => t.1.fromMap == s.crown.mapping && t.1.toMap == m with
      | none => ((s.updCrown fun c => { c with switch := none }).complete h stFailed 0 0).suspendAt g
      | some t =>
        let s := s.updCrown fun c => { c with reshard := some (t.2, 0, false), phaseDone := [], reshardIn := [] }
        if now then s.openPhase 0 false else s

/-! ### Step records -/

/-- The eight words of a step record (R526). -/
def State.recordWords (s : State) (o : OpenStep) (vote discard : Bool) (reason : Nat) : List Nat :=
  let loss := fun n => (tget 0 s.crown.lossVals n).toNat
  [o.step, o.startNs.toNat, s.issueNs, if o.init then 0 else s.crown.batchDigest.toNat, loss 1 * 2 ^ 32 + loss 0,
    loss 3 * 2 ^ 32 + loss 2, s.crown.gen,
    s.crown.attempts % 2 ^ 32 * 2 ^ 32 + reason * 2 ^ 6 + b2n discard * 2 ^ 5 + b2n vote * 2 ^ 4 + o.cls]

/-- Write the step record (R526): hold it, log it, send it. -/
def State.writeRecord (s : State) (o : OpenStep) (vote discard : Bool) (reason : Nat) : State :=
  let w := s.recordWords o vote discard reason
  let last := w.zipIdx.foldl (fun (t : Tbl W64) x => tput 0 t x.2 (BitVec.ofNat 64 x.1)) []
  let s := s.updCrown fun c => { c with stepLast := last, attempts := 0 }
  let s := s.logEvent 0x0A 56 0
    (body [(64, lget 0 w 0), (64, lget 0 w 1), (64, lget 0 w 3), (32, lget 0 w 4), (9, lget 0 w 7)])
  s.sendFrame { type := ftStep, payload := w.flatMap fun x => leBytes 8 x }

/-! ### Commit -/

/-- Digest of a hub's UPDATE items of the step, in list order (R463): a digest goes on from the one before it. -/
def Hub.masterDigest (x : Hub) : W64 :=
  let l := x.updDone.foldl (fun (l : List (Nat × W64 × Nat)) d => (l.filter fun e => decide (e.1 < d.1)) ++ [d] ++ l.filter fun e => decide (d.1 ≤ e.1)) []
  l.foldl (fun c d => crc64From c (List.replicate d.2.2 0) ^^^ d.2.1) 0

/-- The generation digest (R463): of the eight hub digests, H0 first, each 8 bytes little-endian. -/
def digestOf (l : List W64) : W64 := crc64 (l.flatMap fun d => leBytes 8 d.toNat)

/-- The digest of the step that has just run. -/
def State.stepDigest (s : State) : W64 := digestOf ((List.range 8).map fun h => (s.hub h).masterDigest)

/-- Start the STATIC rewrite of a hub (R244): every sector of every valid plate in a STATIC range. -/
def State.startRewrite (s : State) (h : Nat) : State :=
  let s := s.finishRewrite h
  let ranges := (lget {} s.loaded.placement.hubs h).ranges.filter fun r => r.kind ≠ 1
  let secs := (s.validPlates h).flatMap fun p => ((List.range 128).map fun i => p + 32 * i).filter fun a =>
    ranges.any fun r => overlaps a 32 r.base r.size
  secs.foldl (fun s a => s.pushReq h queueStatic { kind := .rewrite, addr := a }) s

/-- Whether a commit triggers checkpoint streams (R290). -/
def State.ckptDue (s : State) (g : Nat) : Bool :=
  let n := s.mouldSet.step.ckptEvery
  n != 0 && g % n == 0 && decide (s.crown.rankNow.toNat < s.mouldSet.ranks)

/-- Take the mean input power of the step that commits (R550): of one shorter than an interval, the last interval's. -/
def State.closeMean (s : State) : State :=
  let p := s.power
  { s with power := { p with pMean := if p.pSum.2 = 0 then p.pin else p.pSum.1 / p.pSum.2, floorOn := true } }

/-- COMMIT of step g (R7, R297, R449, R463, R464, R468, R526), but for checkpoint and boundary. -/
def State.commitStep (s : State) (o : OpenStep) (vote : Bool) : State :=
  let g := o.step
  let digest := s.stepDigest
  let s := (s.mapHubs fun x => { x with tags := finalTags g x.tags, badSeen := [] }).mapTiles fun x =>
    { x with risers := finalTags g x.risers }
  let keep := s.mouldSet.step.replayOnRestart
  let s := s.updCrown fun c =>
    { c with gen := g, priorIntact := !o.init, genDigest := if keep then digest else c.genDigest, attempt := 0, openStep := none
             held := none, voted := none, commitHeld := false, deadline := !o.init && c.job == .active
             keptFeed := if o.init then none else if keep then some (g, tget {} c.feeds g) else none, feeds := terase c.feeds g }
  s.closeMean.writeRecord o vote false 0

/-- A DISCARD under SKIP (R22, R313): the crown relabels generation g - 1 as g, and every hub copies. -/
def State.skipStep (s : State) (o : OpenStep) (vote : Bool) : State :=
  let s := s.dropProv
  let s := s.updCrown fun c =>
    { c with gen := o.step, relabel := true, attempt := 0, openStep := none, held := none, voted := none, deadline := c.job == .active
             feeds := terase c.feeds o.step }
  (s.eachHub fun _ x => { x with relabel := true }).writeRecord o vote true 1

/-- The job ends (R518): feeds dropped, handle 1 and what waits for a boundary completed, committed bank and tags kept. -/
def State.endJob (s : State) : State :=
  let s := s.dropProv
  let s := s.updCrown fun c =>
    { c with job := .ended, rstate := .idle, openStep := none, held := none, voted := none, deferring := false, deadline := false
             feeds := [], keptFeed := none, suspend := none, cancelPending := false, rebuild := false, relabel := c.relabel }
  let s := match s.crown.switch with
    | some (h, _, _) => (s.updCrown fun c => { c with switch := none, reshard := none }).complete h stCancelled 0 0
    | none => s
  s.complete 1 stCancelled 0 0

/-- A CANCEL outcome (R518, R526): its step record, then the job's end. Of a step that never opened the record's START_NS and CLASS
are free values. -/
def State.cancelJob (s : State) (g : Nat) : State :=
  match (match s.crown.openStep with | some o => some o | none => s.crown.held) with
  | some o => (s.writeRecord o (s.crown.voted.getD false) true 4).endJob
  | none =>
    let f := s.drawFree
    let c := f.2.drawFree
    let o : OpenStep := { step := g, startNs := f.1, cls := c.1.toNat % 16 }
    let s := c.2.updCrown fun c => { c with lossVals := [], batchDigest := 0 }
    (s.writeRecord o false true 4).endJob

/-- Apply the outcome of the open step (R22, R297, R303, R305, R369, R370, R493). The commit of the init step opens no step: the
rebuild of its working copies under the default set follows it. -/
def State.applyOutcome (s : State) (o : OpenStep) (discard : Bool) (reason : Nat) : State :=
  let vote := s.crown.voted.getD false
  if !discard then
    let s := s.commitStep o vote
    if o.init then
      let s := (s.updCrown fun c => { c with mapping := s.header.defaultSet }).loadMoulds
      ({ s with startup := { s.startup with initDone := true } } : State).startRebuild
    else
      let s := if s.ckptDue o.step then (List.range 8).foldl State.startRewrite (s.startCkpt o.step o.cls) else s
      s.boundary o.step true
  else if reason = 4 then s.cancelJob o.step
  else if reason = 1 && !o.init then s.skipStep o vote
  else s.beginAbort false

/-! ### Votes -/

/-- Whether a list of a tile is complete. -/
def State.tileListDone (s : State) (t l : Nat) : Bool :=
  decide (((s.tileMould t).marks l).length ≤ ((s.ltile t).run l).pos)

/-- Whether a tile has completed every list of the step, with all its launches, pours and descriptor runs. -/
def State.tileDone (s : State) (t : Nat) : Bool :=
  let x := s.ltile t
  (List.range 18).all (s.tileListDone t) && x.prologue = [] &&
    (x.engines.all fun e => e.2.runs = [] && e.2.kicks = []) &&
    (x.clusters.all fun c => c.2.launches = [] && c.2.arr.pours = [] && (c.2.arr.prologueDone || c.2.arr.prologue = {}))

/-- Whether a hub has completed every list, node and update. -/
def State.hubDone (s : State) (h : Nat) : Bool :=
  let x := s.hub h
  (List.range 6).all (s.hubListDone h) && (x.nodes.all fun n => n.done) && x.upds = []

/-- Whether every list of the step, or of a rebuild, is complete. -/
def State.workDone (s : State) : Bool :=
  (s.crown.openStep.isNone || (List.range 48).all s.tileDone) && (List.range 8).all s.hubDone

/-- Whether every valid loss slot has its value (R290). -/
def State.lossDone (s : State) : Bool :=
  s.mouldSet.step.loss.zipIdx.all fun l => l.1.isNone || thas s.crown.lossVals l.2

/-- Whether two votes name different classes: the class of the lowest rank, the lowest rank that names another, and its class. -/
def classConflict (v : Tbl VoteIn) : Option (Nat × Nat × Nat) :=
  match v with
  | [] => none
  | (_, a) :: t => (t.find? fun b => b.2.cls != a.cls).map fun b => (a.cls, b.1, b.2.cls)

/-- The coordinator's decision once every rank has voted (R368, R369, R292), applied on its own device. -/
def State.decideStep (s : State) (o : OpenStep) : State :=
  let g := o.step
  match classConflict s.crown.votes with
  | some (a, r, b) => (s.recordDecision g true 3).crownFault 0x11 [(64, g), (4, a), (11, r), (4, b)]
  | none =>
    if s.crown.cancelPending then (s.recordDecision g true 4).applyOutcome o true 4
    else if s.crown.votes.any fun v => v.2.nonfinite then (s.recordDecision g true 1).applyOutcome o true 1
    else (s.recordDecision g false 0).applyOutcome o false 0

/-- A vote reaches the coordinator (R368). -/
def State.takeVote (s : State) (rank step : Nat) (b : VoteBody) : State :=
  let due := match s.crown.openStep with | some o => o.step | none => s.crown.gen + 1
  if !s.isCoord || step ≠ due || s.isDecided step then s
  else
    let s := s.updCrown fun c => { c with votes := tset c.votes rank { nonfinite := b.nonfinite, cls := b.cls.toNat } }
    match s.crown.openStep with
    | some o => if s.mouldSet.ranks ≤ s.crown.votes.length && !o.replay then s.decideStep o else s
    | none => s

/-- VOTE_SEND (R311, R357, R366): the device's vote, once every list, comparison and loss value is there. A tagged range that is not
PROV(g) is the UNWRITTEN fault instead. -/
def execVoteSend (s : State) : Out :=
  .next (match s.crown.openStep with
    | none => s
    | some o =>
      if o.replay || s.crown.voted.isSome || s.crown.deferring || !s.workDone || !s.lossDone ||
          (s.hubs.any fun e => e.2.needDig ≠ []) || (s.crown.reports.any fun r => r.code == 0x0C) then s
      else match s.unwritten o.step with
        | some (h, i) => s.report (hubDie h) 0x0C [(64, o.step), (3, h), (16, i)]
        | none =>
          let bad := s.hubs.any fun e => e.2.nonfinite
          let b : VoteBody := { nonfinite := bad, cls := BitVec.ofNat 4 o.cls }
          let s := s.updCrown fun c => { c with voted := some bad }
          if s.isCoord then s.takeVote s.coord o.step b else s.sendPrio s.coord o.step (.vote b))

/-- A late DISCARD under SKIP of the voted step that an abort has closed (R22, R313, R314): the generation is relabelled, and the copy runs
at order 8 of the restart. -/
def State.skipHeld (s : State) (o : OpenStep) : State :=
  ((s.skipStep o (s.crown.voted.getD false)).updCrown fun c => { c with deadline := false }).eachHub fun _ x => { x with relabel := false }

/-- An OUTCOME is taken (R22, R367, R370): of the open step it is applied, and then a deferred abort begins; of a step that an abort has
closed a COMMIT is held, a DISCARD under SKIP relabels, and any other DISCARD drops the PROV tags; a CANCEL of a step that is closed or
never opened ends the job. -/
def State.onOutcome (s : State) (m : PrioHead) (b : OutcomeBody) : State :=
  let g := m.step.toNat
  match s.crown.openStep with
  | some o =>
    if o.replay || o.step ≠ g || (s.crown.voted.isNone && !b.discard) then s
    else
      let late := s.crown.deferring
      let s := s.applyOutcome o b.discard b.reason.toNat
      if late && s.crown.rstate = .running then s.beginAbort false else s
  | none => match s.crown.held with
    | some o =>
      if o.step ≠ g then s
      else if !b.discard then s.updCrown fun c => { c with commitHeld := true }
      else if b.reason = 4 then s.cancelJob g
      else if b.reason = 1 && !o.init then s.skipHeld o
      else s.dropProv.updCrown fun c => { c with held := none, voted := none }
    | none =>
      if b.discard && b.reason = 4 && g = s.crown.gen + 1 && (s.crown.job = .active || s.crown.job = .suspended) then s.cancelJob g
      else s

/-! ### Re-shard -/

/-- A rank has finished the phase that runs; the coordinator closes it when every rank has, and announces the next (R375). -/
def State.countPhase (s : State) (rank : Nat) (b : PhaseBody) : State :=
  match s.crown.reshard with
  | none => s
  | some (_, round, place) =>
    if !s.isCoord || b.round.toNat ≠ round || b.place ≠ place then s
    else
      let s := s.updCrown fun c => { c with phaseDone := addOnce c.phaseDone rank }
      if s.crown.phaseDone.length < s.mouldSet.ranks then s
      else
        let next : Nat × Bool := if place then (round + 1, false) else (round, true)
        ((s.updCrown fun c => { c with phaseDone := [] }).announcePhase next.1 next.2).openPhase next.1 next.2

/-- RESHARD_PHASE_DONE (R375): this device's part is done and goes to the coordinator, or another rank's report reaches it. -/
def execReshardPhaseDone (rank : BitVec 11) (b : PhaseBody) (s : State) : Out :=
  .next (if s.crown.rstate ≠ .running then s
    else if rank ≠ s.crown.rankNow then s.countPhase rank.toNat b
    else match s.crown.reshard with
      | none => s
      | some (_, round, place) =>
        if b.round.toNat ≠ round || b.place ≠ place || !s.phaseIn then s
        else if s.isCoord then s.countPhase rank.toNat b
        else s.sendPrio s.coord s.crown.gen (.phaseDone b))

end Sys2Proof.Machine
end

