-- ==== Sys2Proof/Machine/Restart.lean ====
section
/-! DEFINITION. Restart and start (R449 to R468, R494 to R498, R371): READY, the leader's decision, GO and what it settles,
restores and rebuilds, the pending relabel, the restart replay, DONE, OPEN and STALL. -/
namespace Sys2Proof.Machine

/-! ### Messages -/

/-- Send a message under a restart epoch of its own: RESTART messages carry the body's EPOCH in word 0 (R398). -/
def State.sendPrioAs (s : State) (epoch : W32) (dst step : Nat) (b : PrioBody) : State :=
  s.routePrio { s.prioHead dst false step with epoch := epoch } b

/-- Broadcast a message under a restart epoch. -/
def State.bcastPrioAs (s : State) (epoch : W32) (step : Nat) (b : PrioBody) : State :=
  s.treePorts.foldl (fun s p => s.updPort p.1 p.2 fun x => x.sendPrio { s.prioHead 0 true step with epoch := epoch } b) s

/-! ### READY -/

/-- Whether this device runs as a job rank (R460). -/
def State.isJobRank (s : State) : Bool := decide (s.crown.rankNow.toNat < s.mouldSet.ranks)

/-- Whether a read found an uncorrectable sector in the committed bank (R453). -/
def State.bankBad (s : State) : Bool :=
  (List.range 8).any fun h => (s.hub h).badSeen.any fun a =>
    (s.taggedRanges h).any fun r => overlaps a 32 (r.1 + s.crown.gen % 2 * s.bankSpan) r.2

/-- Whether a hub holds a complete partner copy of a generation (R456); a hub without partner slots holds nothing of it. -/
def State.hubHolds (s : State) (h k : Nat) : Bool :=
  let x := s.hub h
  (lget {} s.loaded.placement.hubs h).partner.2 == 0 || (x.slot0.state == 2 && x.slot0.gen == k) || (x.slot1.state == 2 && x.slot1.gen == k)

/-- The generation this device's partner slot n holds, where all eight hubs hold it (R456). Slots are numbered as on the lowest hub
that has them (DESIGN CHOICE: each hub fills its own two slots in turn). -/
def State.slotGen (s : State) (n : Nat) : Option Nat :=
  match (List.range 8).find? fun h => (lget {} s.loaded.placement.hubs h).partner.2 != 0 with
  | none => none
  | some h =>
    let c := (s.hub h).slot n
    if c.state = 2 && (List.range 8).all fun h => s.hubHolds h c.gen then some c.gen else none

/-- The first six bytes of the pattern digest (R494). -/
def State.pdigest (s : State) : BitVec 48 := BitVec.ofNat 48 (leNat ((beBytes 64 s.header.digest.toNat).take 6))

/-- The body of this device's READY (R451, R494). -/
def State.readyBody (s : State) (start : Bool) : ReadyBody :=
  let c := s.crown
  let flags := b2n (c.held.isSome && !start) + 2 * b2n (c.relabel && !start) + 4 * b2n (!start && s.bankBad) +
    8 * b2n (!s.isJobRank) + 16 * b2n (c.commitHeld && !start) + 32 * b2n (s.slotGen 0).isSome + 64 * b2n (s.slotGen 1).isSome +
    128 * b2n (start && s.startup.imported) + 256 * b2n (!start && c.linkDown)
  { gen := BitVec.ofNat 64 c.gen, flags := BitVec.ofNat 9 flags, slot0Gen := BitVec.ofNat 64 ((s.slotGen 0).getD 0)
    slot1Gen := BitVec.ofNat 64 ((s.slotGen 1).getD 0), pdigest := s.pdigest, refusal := s.startup.refusal }

/-- A READY as a leader holds it. -/
def ReadyIn.of (b : ReadyBody) : ReadyIn :=
  { gen := b.gen.toNat, flags := b.flags, slot0 := b.slot0Gen.toNat, slot1 := b.slot1Gen.toNat, pdigest := b.pdigest, refusal := b.refusal }

/-! ### Replay -/

/-- The next step whose feed the device expects (R523, R525): C + 1, or C + 2 once that of C + 1 is whole and R468 does not
apply. -/
def State.nextFeed (s : State) : Nat :=
  let g := s.crown.gen + 1
  if (s.feed g).whole && !s.mouldSet.step.replayOnRestart then g + 1 else g

/-- Tell the host where its feed goes on (R513). -/
def State.sendRewind (s : State) (g : Nat) : State :=
  (s.updCrown fun c => { c with rewound := true }).sendFrame { type := ftRewind, param0 := BitVec.ofNat 64 g }

/-- Start the replay of step C over the feed that the device keeps (R465, R467). -/
def State.openReplay (s : State) (m : Manifest) (testRamp : Bool) : State :=
  let o : OpenStep :=
    { step := s.crown.gen, cls := m.cls, chunks := s.chunkCount m, startNs := BitVec.ofNat 64 s.issueNs, mapping := s.crown.mapping
      replay := true, testRamp := testRamp }
  (s.updCrown fun c => { c with replayFeed := true }).openWork o

/-- Word n of the last step record. -/
def State.lastWord (s : State) (n : Nat) : W64 := tget 0 s.crown.stepLast n

/-- End a replay: its work is dropped, and a feed that was sent again for it. -/
def State.endReplay (s : State) : State :=
  let s := ((s.mapHubs Hub.cleared).mapTiles Tile.cleared).dropProv
  s.updCrown fun c => { c with openStep := none, replayFeed := false, keptFeed := if s.mouldSet.step.replayOnRestart then c.keptFeed else none }

/-- The REPLAY event (R465, R472). -/
def State.logReplay (s : State) (found : W64) : State :=
  s.logEvent 0x0C 56 0 (body [(64, found.toNat), (64, s.crown.genDigest.toNat)])

/-- The REPLAY fault of a restart (R467, R572). -/
def State.replayFault (s : State) (cause : Nat) (expected found : W64) : State :=
  s.crownFault 0x16 [(64, s.crown.gen), (2, cause), (64, expected.toNat), (64, found.toNat)]

/-- Executions of the entries of a hub list, in order, each with its header and execution count (fuel: entries executed). -/
def State.executions (s : State) (l : List (Entry HubItem)) : Nat → ListRun → List (Head × Nat × HubItem)
  | 0, _ => []
  | k + 1, r =>
    match l[r.pos]? with
    | none => []
    | some (.item hd it) => (hd, r.count r.pos, it) :: s.executions l k r.advance
    | some (.rbegin _ c fm mb) => s.executions l k (r.begin l (if fm then s.chunksOf mb else c))
    | some (.rend _) => s.executions l k r.finishRepeat

/-- Digest of the committed masters of a hub (R463, R467); none where a sector is uncorrectable. -/
def State.redigestHub (s : State) (h : Nat) : Option W64 × State :=
  let l := lget [] (s.hubMouldOf ((s.lastWord 7).toNat % 16) h).lists 2
  (s.executions l 1048576 {}).foldl (fun acc x => match acc.1, x.2.2.body with
    | some c, .update _ =>
      let s := acc.2
      match s.agentRead h 0x2 (s.itemAddr x.1 x.2.1 x.2.2.sel x.2.2.addr (s.crown.gen % 2 * s.bankSpan)) (4 * x.2.2.elems) with
      | (none, s) => (none, s)
      | (some b, s) => (some (crc64From c b), s)
    | _, _ => acc) (some 0, s)

/-- Digest of the committed masters of the device (R467). -/
def State.redigest (s : State) : Option W64 × State :=
  let r := (List.range 8).foldl (fun (acc : Option (List W64) × State) h => match acc.1 with
    | none => acc
    | some l => match acc.2.redigestHub h with
      | (none, s) => (none, s)
      | (some d, s) => (some (l ++ [d]), s)) (some [], s)
  (r.1.map digestOf, r.2)

/-! ### DONE and OPEN -/

/-- Start a soft-start (R549). -/
def State.startSoft (s : State) : State :=
  let ms := s.mouldSet.step.softStartMs
  { s with power := { s.power with soft := if ms = 0 then none else some (s.power.pin, ms, 0) } }

/-- OPEN takes effect (R451 order 11, R303, R457, R525, R376, R518): feed above T is dropped after a restart, the crown runs, and
what waited for OPEN goes on. -/
def State.takeOpen (s : State) : State :=
  let again := s.crown.epoch ≠ 0
  let s := s.reachOrder 11
  let s := s.updCrown fun c =>
    { c with rstate := .running, order := 0, job := if c.job = .suspended then .suspended else .active, votes := [], decided := none
             feeds := if again then c.feeds.filter (fun e => decide (e.1 ≤ c.target)) else c.feeds
             deadline := c.job != .suspended, triedRanks := [], substIn := [], linkDown := false }
  let s := { s with startup := { s.startup with done := addOnce s.startup.done 13 } }
  let s := if again then s.sendRewind (s.crown.gen + 1) else s
  let s := ({ s with power := { s.power with floorOn := false } } : State).startSoft
  let s := if s.ckptDue s.crown.gen then s.startCkpt s.crown.gen s.cls else s
  s.resumeReshard.resumeRx

/-- A DONE reaches the leader (R451): the last one opens the job. -/
def State.takeDone (s : State) (rank : Nat) : State :=
  if s.crown.expectDone = [] then s
  else
    let s := s.updCrown fun c => { c with dones := addOnce c.dones rank }
    if s.crown.expectDone.all fun r => decide (r ∈ s.crown.dones) then
      let s := s.updCrown fun c => { c with expectDone := [], dones := [] }
      (s.bcastPrio (s.crown.target + 1) .openJob).takeOpen
    else s

/-- Send DONE to the leader (R451 order 10). -/
def State.sendDone (s : State) : State :=
  let s := s.reachOrder 10
  if s.crown.leader = s.crown.rankNow then s.takeDone s.crown.rankNow.toNat
  else s.sendPrio s.crown.leader.toNat (s.crown.target + 1) (.done (BitVec.ofNat 64 s.crown.target))

/-! ### Orders 7 to 9 -/

/-- Order 9 (R451, R467): where REPLAY_ON_RESTART is set, the restart replay with PRIOR_INTACT and MODE NONE, and without PRIOR_INTACT the
re-digest that REPLAY_DONE ends. -/
def State.order9 (s : State) : State :=
  if s.crown.epoch = 0 || !s.isJobRank then s.sendDone
  else
    let s := s.reachOrder 9
    if !s.mouldSet.step.replayOnRestart then s.sendDone
    else if s.crown.priorIntact && s.crown.mode ≠ 0 then s.sendDone
    else if s.crown.priorIntact then
      match s.crown.keptFeed.bind fun k => k.2.manifest with
      | none => s
      | some m =>
        let d := s.feedDigest m
        if d ≠ s.lastWord 3 then s.replayFault 1 (s.lastWord 3) d else s.openReplay m false
    else s

/-- Order 8 (R451, R314): a pending relabel runs again. -/
def State.order8 (s : State) : State :=
  if s.crown.epoch = 0 then s.order9
  else
    let s := s.reachOrder 8
    if s.crown.relabel then s.eachHub fun _ x => { x with relabel := true } else s.order9

/-- Whether the init step is still to run (R493, R498). -/
def State.initDue (s : State) : Bool :=
  s.header.initSet ≠ 0xFFFF && !s.startup.initDone && !s.startup.imported && s.crown.gen = 0 && s.isJobRank

/-- Open the init step (R493): step 0 in the lowest class present, without feed, timed from GO, with the init set's instruction
stores (R270). -/
def State.openInit (s : State) : State :=
  let cs := (s.setOf s.header.initSet).classes
  let cls := ((List.range 9).find? fun i => (lget {} cs i).present).getD 0
  let o : OpenStep := { step := 0, cls := cls, startNs := BitVec.ofNat 64 s.issueNs, mapping := s.header.initSet, init := true }
  ((s.updCrown fun c => { c with deadline := true, batchDigest := 0, decided := none, votes := [] }).openWork o).loadMoulds.checkScales

/-- Send one rank a whole copy of this device's committed bank, range by range (R461, TWIN). -/
def State.sendBank (s : State) (dst : Nat) : State :=
  (List.range 8).foldl (fun s h => (s.taggedRanges h).foldl (fun s r =>
    match s.agentRead h 0x3 (r.1 + s.crown.target % 2 * s.bankSpan) r.2 with
    | (none, s) => s
    | (some b, s) => match s.routePort dst with
      | none => s.streamFault h 6 0 dst 0xFFFF
      | some (ph, pm) =>
        s.sendStream ph pm { step := s.crown.target, kind := 1, dst := dst, hub := h, fmt := 4, elems := b.length, win := 0xFFFF, offset := r.1 }
          b (some (.final s.crown.target))) s) s

/-- Send one rank the copy of generation T that this device keeps for it (R461, ROLLBACK). -/
def State.sendSlot (s : State) (dst : Nat) : State :=
  (List.range 8).foldl (fun s h =>
    let x := s.hub h
    let area := (lget {} s.loaded.placement.hubs h).partner
    match (List.range 2).find? fun n => (x.slot n).state == 2 && (x.slot n).gen == s.crown.target with
    | none => s
    | some n => match s.agentRead h 0x3 (area.1 + n * area.2) area.2 with
      | (none, s) => s
      | (some b, s) => match s.routePort dst with
        | none => s.streamFault h 6 0 dst 0xFFFF
        | some (ph, pm) =>
          s.sendStream ph pm { step := s.crown.target, kind := 1, dst := dst, hub := h, fmt := 4, elems := b.length, win := 0xFFFF }
            b (some (.final s.crown.target))) s

/-- PARTNER_SEL's rank in a rank's binding record (R289). -/
def State.partnerOf (s : State) (rank : Nat) : Nat := (lget 0 (s.bindingOf rank) s.mouldSet.step.partnerSel).toNat % 2048

/-- Begin to receive a restore (R461): RESTORING, and no tag holds. -/
def State.beginRestore (s : State) : State := s.eachHub fun _ x => { x with restoring := true, tags := [], covered := [] }

/-- Order 7 (R451, R461, R493): the init step, the rebuild after an import, or the restore of the mode. A device that none of it
involves goes on. -/
def State.order7 (s : State) : State :=
  let me := s.crown.rankNow.toNat
  let s := s.reachOrder 7
  if !s.isJobRank then s.sendDone
  else if s.initDue then s.openInit
  else if s.crown.importDue then s.startRebuild
  else if s.crown.mode = 1 then
    let mine := s.crown.substIn.filter fun x => x.2.2 == me
    let s := mine.foldl (fun s x => s.sendBank x.1) s
    if s.crown.substIn.any fun x => x.1 == me then s.beginRestore
    else if mine = [] then s.order8 else s
  else if s.crown.mode = 2 then
    let wards := (List.range s.mouldSet.ranks).filter fun r => s.partnerOf r == me
    let s := wards.foldl State.sendSlot s
    if (s.crown.substIn.any fun x => x.1 == me) || s.crown.gen ≠ s.crown.target then s.beginRestore else s.startRebuild
  else s.order8

/-- RESTORE_DONE (R461, R493): everything a restore brings has come, the rebuild is complete and what this device sends has
gone; then every tagged range holds FINAL(T). -/
def execRestoreDone (s : State) : Out :=
  let restoring := s.hubs.any fun e => e.2.restoring
  .next (if s.crown.rstate ≠ .restarting || s.crown.order ≠ 7 || s.crown.openStep.isSome || (restoring && !(s.crown.mode = 1 && s.restoredAll)) ||
      (s.crown.rebuild && !(List.range 8).all s.hubDone) || (s.hubs.any fun e => e.2.ports.any fun p => p.2.tx ≠ []) then s
    else
      let fresh := restoring || s.crown.rebuild
      let s := if restoring then s.updCrown fun c => { c with gen := c.target } else s
      let s := s.mapHubs fun x => { x.cleared with restoring := false, relabel := x.relabel && !fresh }
      let s := if fresh then (List.range 8).foldl (fun s h => s.bankTags h s.crown.gen) s else s
      let s := s.updCrown fun c =>
        { c with rebuild := false, importDue := false, priorIntact := c.priorIntact && !fresh, relabel := c.relabel && !fresh }
      s.order8)

/-- RELABEL_COPY_DONE (R313, R314): the hub's copy, its tags; the eighth hub ends the pending relabel, and the step's boundary
follows. -/
def execRelabelCopyDone (hb : Fin 8) (s : State) : Out :=
  let h := hb.val
  let g := s.crown.gen
  let restart := s.crown.rstate = .restarting && s.crown.order = 8
  .next (if !(s.hub h).relabel || !s.crown.relabel || !(restart || s.crown.rstate = .running) then s
    else
      let r := (s.taggedRanges h).foldl (fun (acc : Bool × State) r =>
        if !acc.1 then acc
        else match acc.2.agentRead h 0x3 (r.1 + (g + 1) % 2 * s.bankSpan) r.2 with
          | (none, s) => (false, s)
          | (some b, t) => (true, t.agentWrite h (r.1 + g % 2 * s.bankSpan) b)) (true, s)
      if !r.1 then r.2
      else
        let s := (r.2.bankTags h g).updHub h fun x => { x with relabel := false }
        if s.hubs.any fun e => e.2.relabel then s
        else
          let s := s.updCrown fun c => { c with relabel := false }
          if restart then (s.boundary g false).order9 else s.boundary g true)

/-- REPLAY_DONE (R465 to R467): a replay whose work is complete ends with its record; at a restart a digest that differs is the
REPLAY fault. Without PRIOR_INTACT the restart re-digests the committed masters. -/
def execReplayDone (s : State) : Out :=
  let restart := s.crown.rstate = .restarting && s.crown.order = 9
  .next (match s.crown.openStep with
    | some o =>
      if !o.replay || !s.workDone then s
      else
        let d := s.stepDigest
        let sent := s.crown.replayFeed && !s.mouldSet.step.replayOnRestart
        let s := s.endReplay.logReplay d
        if restart then (if d = s.crown.genDigest then s.sendDone else s.replayFault 0 s.crown.genDigest d)
        else
          let s := if sent then s.sendRewind s.nextFeed else s
          match s.opHandle fun o => match o with | .replay _ _ => true | _ => false with
          | some h => s.complete h stOk d s.crown.genDigest
          | none => s
    | none =>
      if !restart then s
      else match s.redigest with
        | (none, s) => s
        | (some d, s) =>
          let s := s.logReplay d
          if d = s.crown.genDigest then s.sendDone else s.replayFault 2 s.crown.genDigest d)

/-! ### GO -/

/-- Install one substitution (R460): every crown routes the lost rank to the spare; the spare takes the rank and its moulds. -/
def State.installSubst (s : State) (x : Nat × Nat × Nat) : State :=
  if x.1 = x.2.1 then s
  else
    let s := { s with loaded := { s.loaded with spareRoutes := (x.1, x.2.1) :: s.loaded.spareRoutes } }
    if s.startup.rank.toNat = x.2.1 && s.crown.rankNow = s.startup.rank then
      (s.updCrown fun c => { c with rankNow := BitVec.ofNat 11 x.1 }).loadMoulds
    else s

/-- Settle the voted step that the abort has closed (R371, R451 order 6). -/
def State.settleHeld (s : State) (commit : Bool) : State :=
  match s.crown.held with
  | none => s.dropProv.updCrown fun c => { c with voted := none, commitHeld := false }
  | some o =>
    let vote := s.crown.voted.getD false
    if !commit then s.dropProv.updCrown fun c => { c with held := none, voted := none, commitHeld := false }
    else
      let s := (s.commitStep o vote).updCrown fun c => { c with deadline := false }
      if o.init then
        (({ s with startup := { s.startup with initDone := true } } : State).updCrown fun c =>
          { c with mapping := s.header.defaultSet, importDue := true }).loadMoulds
      else
        let s := if s.ckptDue o.step then (List.range 8).foldl State.startRewrite s else s
        s.boundary o.step false

/-- GO takes effect (R450, R451 orders 6 and 7): the epoch, the substitutions, the voted step, then the work of the mode. -/
def State.takeGo (s : State) (epoch : W32) (b : GoBody) : State :=
  let again := epoch ≠ 0
  let s := s.updCrown fun c =>
    { c with epoch := epoch, attempt := b.attempt.toNat, mode := b.mode.toNat, target := b.gen.toNat, rstate := .restarting
             attempts := if again then c.attempts + 1 else c.attempts, decided := none, votes := [], openStep := none }
  let s := if again then s.crownDross 0x1D 1 else s
  let s := s.crown.substIn.foldl State.installSubst s
  let s := { s with startup := { s.startup with started := true } }
  (((s.settleHeld b.commit).reachOrder 6).order7).resumeRx

/-- Whether this device may accept a GO (R451): it waits for one from the rank it last sent READY to. -/
def State.awaitsGo (s : State) (src : BitVec 11) : Bool :=
  src == s.crown.leader && ((s.crown.rstate == .aborting && s.crown.order == 3) ||
    (s.crown.rstate == .idle && s.startup.readySent && !s.startup.started && s.startup.refusal == 0))

/-! ### STALL -/

/-- STALLED (R455): the committed generation, tags and banks are kept; the ports stay up. -/
def State.enterStall (s : State) (epoch : W32) (attempt : Nat) : State :=
  (s.updCrown fun c => { c with rstate := .stalled, order := 0, attempt := attempt, readys := [], leading := false, triedRanks := [] }).logEvent 0x09 56 0
    (body [(4, 5), (32, epoch.toNat), (2, s.crown.mode), (64, s.crown.target)])

/-! ### The leader -/

/-- What a leader decides (R453, R459): commit, mode, T and the substitutions (lost, spare, source). -/
structure Plan where
  commit : Bool := false
  mode : Nat := 0
  target : Nat := 0
  substs : List (Nat × Nat × Nat) := []
  deriving DecidableEq, Repr

/-- Flags of a READY (R451). -/
def ReadyIn.flag (r : ReadyIn) (i : Nat) : Bool := r.flags.getLsbD i

/-- The step that GO commits, if any (R371, R453). -/
def commitOf (rs : Tbl ReadyIn) : Option Nat :=
  match rs.find? fun e => e.2.flag 4 with
  | some e => some (e.2.gen + 1)
  | none => (rs.find? fun e => e.2.flag 0 && rs.any fun f => f.2.gen == e.2.gen + 1).map fun e => e.2.gen + 1

/-- Lowest committed generation of the job ranks (R453). -/
def lowestGen (rs : Tbl ReadyIn) : Nat :=
  ((rs.filter fun e => !e.2.flag 3).foldl (fun (m : Option Nat) e => some (match m with | none => e.2.gen | some x => min x e.2.gen)) none).getD 0

/-- Generation a rank holds once the voted step is settled. -/
def genAfter (rs : Tbl ReadyIn) (commit : Option Nat) (r : Nat) : Nat :=
  let e := tget {} rs r
  if e.flag 0 && commit == some (e.gen + 1) then e.gen + 1 else e.gen

/-- Whether a rank that answered keeps a complete partner copy of a generation. -/
def keepsCopy (rs : Tbl ReadyIn) (p k : Nat) : Bool :=
  let e := tget {} rs p
  thas rs p && ((e.flag 5 && e.slot0 == k) || (e.flag 6 && e.slot1 == k))

/-- The leader's decision (R371, R376, R453, R459, R460); none is a STALL. -/
def State.plan (s : State) (rs : Tbl ReadyIn) : Option Plan :=
  let jobs := List.range s.mouldSet.ranks
  let commit := commitOf rs
  let t0 := commit.getD (lowestGen rs)
  let lost := jobs.filter fun r => !thas rs r
  let damaged := jobs.filter fun r =>
    let e := tget {} rs r
    thas rs r && e.flag 2 && !(e.flag 0 && commit == some (e.gen + 1))
  let bad := jobs.filter fun r => decide (r ∈ lost) || decide (r ∈ damaged)
  let spares := (rs.filter fun e => e.2.flag 3).map Prod.fst
  let taken := lost.zip spares
  let spareOf := fun (r : Nat) => ((taken.find? fun x => x.1 == r).map Prod.snd).getD r
  let twin := fun (r : Nat) => lget 0xFFFF s.loaded.twins r
  let base : Plan := { commit := commit.isSome, target := t0 }
  if bad = [] then some base
  else if spares.length < lost.length || 64 < bad.length || (lost ≠ [] && s.crown.reshard.isSome) then none
  else if bad.all fun r => twin r != 0xFFFF && thas rs (twin r) && decide (twin r ∉ bad) then
    some { base with mode := 1, substs := bad.map fun r => (r, spareOf r, twin r) }
  else
    let ok := fun (k : Nat) => (bad.all fun r => keepsCopy rs (s.partnerOf r) k) &&
      jobs.all fun r => decide (r ∈ bad) || keepsCopy rs (s.partnerOf r) k || genAfter rs commit r == k
    let ks := (rs.flatMap fun e => [e.2.slot0, e.2.slot1]).filter ok
    if ks = [] then none
    else some { base with mode := 2, target := ks.foldl max 0, substs := bad.map fun r => (r, spareOf r, s.partnerOf r) }

/-- Tell every rank of a STALL, and stall. -/
def State.leadStall (s : State) (epoch : W32) (attempt : Nat) : State :=
  (s.bcastPrioAs epoch (s.crown.gen + 1) (.stall (BitVec.ofNat 4 attempt))).enterStall epoch attempt

/-- The LOST records of a decision (R444, R572): recorded by the leader, raised by no die. -/
def State.logLost (s : State) (rs : Tbl ReadyIn) (p : Option Plan) : State :=
  ((List.range s.mouldSet.ranks).filter fun r => !thas rs r).foldl (fun s r =>
    let spare := ((p.bind fun p => p.substs.find? fun x => x.1 == r).map fun x => x.2.1).getD 0x7FF
    s.writeFault { code := 0x17, body := body [(64, s.stepNo), (11, r), (11, spare)] }) s

/-- Broadcast SUBST messages, ascending, then GO, and take both on this device (R451 order 5). -/
def State.leadGo (s : State) (epoch : W32) (attempt : Nat) (p : Plan) : State :=
  let step := p.target + 1
  let subs := s.crown.substIn ++ p.substs
  let s := p.substs.foldl (fun s x =>
    s.bcastPrioAs epoch step (.subst { lost := BitVec.ofNat 11 x.1, spare := BitVec.ofNat 11 x.2.1, source := BitVec.ofNat 11 x.2.2 })) s
  let b : GoBody :=
    { attempt := BitVec.ofNat 4 attempt, gen := BitVec.ofNat 64 p.target, mode := BitVec.ofNat 2 p.mode, commit := p.commit
      substs := BitVec.ofNat 8 subs.length }
  let s := s.bcastPrioAs epoch step (.go b)
  let s := s.updCrown fun c => { c with substIn := subs }
  if s.awaitsGo s.crown.rankNow then s.takeGo epoch b else s

/-- The ranks whose DONE the leader waits for (R451): those it holds a READY of, a spare under the rank it takes. -/
def State.awaitDone (s : State) (rs : Tbl ReadyIn) (substs : List (Nat × Nat × Nat)) : State :=
  let as' := fun (r : Nat) => ((substs.find? fun x => x.2.1 == r).map Prod.fst).getD r
  s.updCrown fun c => { c with expectDone := (rs.filter fun e => e.2.refusal == 0).map fun e => as' e.1, dones := [], readys := [], leading := false }

/-- The leader decides a restart (R451 orders 4 and 5, R407, R449, R454). -/
def State.decideRestart (s : State) : State :=
  let rs := s.crown.readys
  let n := s.crown.attempt + 1
  let e := s.crown.leadEpoch
  let s := s.updCrown fun c => { c with substIn := [] }
  let p := if 5 ≤ n || (rs.any fun r => r.2.flag 8) then none else s.plan rs
  let s := s.logLost rs p
  match p with
  | none => s.leadStall e n
  | some p =>
    let at' := s.crown.order
    let s := ((s.reachOrder 4).reachOrder 5).updCrown fun c => { c with order := at' }
    (s.awaitDone rs p.substs).leadGo e n p

/-- A READY reaches the leader of a restart (R451): it decides once it holds one from every rank with a route block. -/
def State.leadReady (s : State) (rank : Nat) (epoch : W32) (b : ReadyBody) : State :=
  if epoch.toNat ≤ s.crown.epoch.toNat || s.startup.refusal ≠ 0 then s
  else
    let s := s.updCrown fun c =>
      { c with readys := tset c.readys rank (ReadyIn.of b), leading := true, leadEpoch := if c.leadEpoch.toNat < epoch.toNat then epoch else c.leadEpoch }
    if (List.range s.loaded.routeRanks).all fun r => thas s.crown.readys r then s.decideRestart else s

/-- Send READY to a rank (R451). -/
def State.sendReady (s : State) (rank : Nat) : State :=
  let e := s.crown.epoch + 1
  let b := s.readyBody false
  let s := s.updCrown fun c => { c with leader := BitVec.ofNat 11 rank, triedRanks := addOnce c.triedRanks rank, substIn := [] }
  if rank = s.crown.rankNow.toNat then s.leadReady rank e b else s.sendPrioAs e rank (s.crown.gen + 1) (.ready b)

/-! ### The start-up coordinator -/

/-- Spares whose READY is good and that take no rank yet, ascending (R496). -/
def State.freeSpares (s : State) : List Nat :=
  ((s.crown.readys.filter fun e => e.2.flag 3 && e.2.refusal == 0).map Prod.fst).filter fun r => !(s.crown.substIn.any fun x => x.2.1 == r)

/-- Job ranks neither present nor substituted (R495, R496). -/
def State.missing (s : State) : List Nat :=
  (List.range s.mouldSet.ranks).filter fun r =>
    !(thas s.crown.readys r && (tget {} s.crown.readys r).refusal == 0) && !(s.crown.substIn.any fun x => x.1 == r)

/-- Whether the start would import (R495). -/
def State.importStart (s : State) : Bool := s.crown.readys.any fun e => e.2.refusal == 0 && e.2.flag 7

/-- Substitute spares for ranks that are missing when WINDOW has passed, where the init step will run (R496). -/
def State.fillMissing (s : State) : State :=
  if !s.crown.startWindow || s.importStart || s.header.initSet = 0xFFFF then s
  else (s.missing.zip s.freeSpares).foldl (fun s x =>
    (s.bcastPrioAs 0 1 (.subst { lost := BitVec.ofNat 11 x.1, spare := BitVec.ofNat 11 x.2, source := BitVec.ofNat 11 x.1 })).updCrown fun c =>
      { c with substIn := c.substIn ++ [(x.1, x.2, x.1)] }) s

/-- The start proceeds once the host or AUTO_START asks for it and every job rank is there (R495 to R497). -/
def State.tryStart (s : State) : State :=
  let s := s.fillMissing
  let subs := s.crown.substIn
  if s.startup.started || s.missing ≠ [] || !(s.startup.hostStart || s.header.autoStart) || !s.awaitsGo s.crown.rankNow then s
  else
    let g := lowestGen (s.crown.readys.filter fun e => e.2.refusal == 0)
    let g := if s.importStart then g else 0
    (s.awaitDone s.crown.readys subs).leadGo 0 0 { target := g }

/-- The conflict of a READY with those held (R495): the code of R499. -/
def State.readyConflict (s : State) (rank : Nat) (r : ReadyIn) : Option Byte :=
  let good := s.crown.readys.filter fun e => e.2.refusal == 0
  let mine := good.filter fun e => !e.2.flag 3
  if r.refusal ≠ 0 then none
  else if thas good rank then some 0x08
  else if good.any fun e => e.2.pdigest != r.pdigest then some 0x12
  else if !r.flag 3 && mine.any fun e => e.2.gen != r.gen || e.2.flag 7 != r.flag 7 then some 0x13
  else none

/-- A READY reaches the start-up coordinator (R495, R496): a conflict is recorded and the READYs are discarded. -/
def State.startReady (s : State) (rank : Nat) (b : ReadyBody) : State :=
  if s.startup.started || s.header.initSet ≠ 0xFFFF && (s.crown.substIn.any fun x => x.1 == rank) then s
  else
    let r := ReadyIn.of b
    match s.readyConflict rank r with
    | some code =>
      let s := s.updCrown fun c => { c with readys := [], startWindow := false }
      { s with startup := { s.startup with peerCode := code, peerRank := BitVec.ofNat 11 rank } }
    | none => (s.updCrown fun c => { c with readys := tset c.readys rank r }).tryStart

/-! ### The commands -/

/-- RESTART_PREPARED (R248, R257, R423, R427, R430, R431, R434, R451 orders 2 and 3): the package is ready again, and READY goes to COORD. A
degraded package sends none (R430). A connected port that timed out sets LINK_DOWN (R407). -/
def execRestartPrepared (groups : GroupFails) (s : State) : Out :=
  let wired := (List.range 16).filter fun q => (s.wire (q / 2) (q % 2)).1
  let p := fun (q : Nat) => s.port (q / 2) (q % 2)
  .next (if s.crown.rstate ≠ .aborting || s.crown.order ≠ 2 || s.power.quenched || s.power.mitten || s.startup.refusal ≠ 0 || !s.negotiated ||
      !(wired.all fun q => (p q).up || (p q).timedOut || (p q).farAsleep) then s
    else
      let down := wired.any fun q => !(p q).up
      let s := (s.repairAll.retrain groups).mapTilesOver.loadMoulds
      if s.isDegraded then { s with startup := { s.startup with refusal := 0x0B } }
      else
        let s := s.updCrown fun c => { c with linkDown := down, triedRanks := [] }
        (s.reachOrder 3).sendReady s.coord)

/-- A READY is taken (R451, R495): at a restart its EPOCH is above the device's own; at start-up it is 0. -/
def State.onReady (s : State) (m : PrioHead) (b : ReadyBody) : State :=
  if m.epoch = 0 then (if s.isCoord then s.startReady m.src.toNat b else s) else s.leadReady m.src.toNat m.epoch b

/-- READY_RETRY_TIMEOUT (R451): no GO came within WINDOW; READY goes to the lowest job rank not yet tried, and to COORD again after
all of them. -/
def execReadyRetryTimeout (s : State) : Out :=
  .next (if s.crown.rstate ≠ .aborting || s.crown.order ≠ 3 then s
    else match (List.range s.mouldSet.ranks).find? fun r => decide (r ∉ s.crown.triedRanks) with
      | some r => s.sendReady r
      | none => (s.updCrown fun c => { c with triedRanks := [] }).sendReady s.coord)

/-- LEADER_WINDOW_EXPIRY (R451, R459): ranks without a READY are lost. -/
def execLeaderWindowExpiry (s : State) : Out := .next (if s.crown.leading then s.decideRestart else s)

/-- START_WINDOW_EXPIRY (R496). -/
def execStartWindowExpiry (s : State) : Out :=
  .next (if s.startup.started || !s.isCoord || s.crown.readys = [] then s
    else (s.updCrown fun c => { c with startWindow := true }).tryStart)

/-- A SUBST is taken (R451, R460): kept until the GO it precedes. -/
def State.onSubst (s : State) (m : PrioHead) (b : SubstBody) : State :=
  if !s.awaitsGo m.src then s
  else s.updCrown fun c => { c with substIn := c.substIn ++ [(b.lost.toNat, b.spare.toNat, b.source.toNat)] }

/-- A GO is taken (R370, R450, R451): accepted from the rank last sent READY to; a device that defers begins its abort. -/
def State.onGo (s : State) (m : PrioHead) (b : GoBody) : State :=
  if s.awaitsGo m.src then s.takeGo m.epoch b
  else if s.crown.deferring then s.beginAbort true
  else s

/-- A DONE is taken (R451): counted by the leader. -/
def State.onDone (s : State) (m : PrioHead) : State := if m.epoch ≠ s.crown.epoch then s else s.takeDone m.src.toNat

/-- An OPEN is taken (R451 order 11). -/
def State.onOpen (s : State) (m : PrioHead) : State :=
  if m.src ≠ s.crown.leader || m.epoch ≠ s.crown.epoch || s.crown.rstate ≠ .restarting || s.crown.order ≠ 10 then s else s.takeOpen

/-- A STALL is taken (R454, R455): every crown that is aborting or restarting stalls. -/
def State.onStall (s : State) (m : PrioHead) (attempt : BitVec 4) : State :=
  if s.crown.rstate ≠ .aborting && s.crown.rstate ≠ .restarting then s else s.enterStall m.epoch attempt.toNat

end Sys2Proof.Machine
end

