-- ==== Sys2Proof/Machine/Startup.lean ====
section
/-! DEFINITION. Start-up (R475 to R499): power and reset, the pattern header and its signature, self-test, memory training, mould load,
and the ready vote. A refusal stops the sequence on the device (R476). -/
namespace Sys2Proof.Machine

/-! ### Orders -/

/-- An order of R475 is complete. -/
def State.doneOrder (s : State) (n : Nat) : State := { s with startup := { s.startup with done := addOnce s.startup.done n } }

/-- Refuse start with a code of R499; the first refusal stands (R476). -/
def State.refuse (s : State) (code : Byte) : State :=
  if s.startup.refusal ≠ 0 then s else { s with startup := { s.startup with refusal := code } }

/-- Whether start-up may go on (R476, R502). -/
def State.startOn (s : State) : Bool :=
  s.crownOn && !s.startup.service && s.startup.refusal == 0 && !s.power.mitten && !s.power.quenched

/-- Ports the wiring table connects (R382). -/
def State.wiredPorts (s : State) : List Nat := (List.range 16).filter fun q => (s.wire (q / 2) (q % 2)).1

/-- Whether every connected port is up and measured (R475 orders 9 and 10). -/
def State.portsUp (s : State) : Bool :=
  s.wiredPorts.all fun q => (s.port (q / 2) (q % 2)).up && (s.port (q / 2) (q % 2)).measured

/-- Last order completed (R506). Orders 9 and 10 run beside order 7 and count once order 8 is complete. -/
def State.orderNow (s : State) : Nat :=
  let m := s.startup.done.foldl max 0
  if m = 8 && s.portsUp then 10 else m

/-! ### The pattern in flash -/

/-- Whether bytes are all zero. -/
def allZero (b : List Byte) : Bool := b.all fun x => x == 0

/-- First flash address of the device area (R479). -/
def State.deviceArea (s : State) : Nat := if s.flash1 then 0x1C000000 else 0x0C000000

/-- A directory entry (R481). -/
def State.dirEntry (s : State) (i : Nat) : Section :=
  let a := 256 + 96 * i
  { type := s.flashNat a 1, index := s.flashNat (a + 2) 2, offset := s.flashNat (a + 8) 8, length := s.flashNat (a + 16) 8
    digest := beNat (s.flashBytes (a + 24) 64) }

/-- The header's fields, and the pattern digest (R480, R486). -/
def State.readHeader (s : State) : Header :=
  let f := s.flashNat 36 2
  { imageLen := s.flashNat 8 8, build := BitVec.ofNat 64 (s.flashNat 16 8), seed := BitVec.ofNat 64 (s.flashNat 24 8)
    defaultSet := s.flashNat 32 2, initSet := s.flashNat 34 2, autoStart := bit f 0, twoFlash := bit f 1, contract := s.flashNat 6 2
    format := s.flashNat 4 2, keySlot := s.flashNat 38 1, sections := (List.range (min 32 (s.flashNat 39 1))).map s.dirEntry
    digest := BitVec.ofNat 512 (beNat (sha512 (s.flashBytes 0 3464))) }

/-- The directory rules of R481 and R482. -/
def sectionsOk (len : Nat) (l : List Section) : Bool :=
  let count := fun (t : Nat) => (l.filter fun x => x.type == t).length
  (l.all fun x => decide (1 ≤ x.type ∧ x.type ≤ 7) && x.offset % 4096 == 0 && decide (x.offset + x.length ≤ len) &&
      (x.type == 2 || x.type == 3 || x.index == 0)) &&
    (l.zipIdx.all fun a => l.zipIdx.all fun b => a.2 == b.2 ||
      (!overlaps a.1.offset a.1.length b.1.offset b.1.length && !(a.1.type == b.1.type && a.1.index == b.1.index))) &&
    count 1 == 1 && decide (1 ≤ count 2) && count 4 == 1 && decide (count 5 ≤ 1) && count 6 == 1 && decide (count 7 ≤ 1)

/-- The FORMAT checks of R480 to R482. -/
def State.formatOk (s : State) : Bool :=
  let h := s.readHeader
  let n := s.flashNat 39 1
  h.format == 1 && decide (1 ≤ n ∧ n ≤ 32) && decide (h.imageLen ≤ s.deviceArea) && allZero (s.flashBytes 40 216) &&
    allZero (s.flashBytes 3461 3) && allZero (s.flashBytes 3596 4) && allZero (s.flashBytes 3600 496) &&
    allZero (s.flashBytes (256 + 96 * n) (3072 - 96 * n)) &&
    ((List.range n).all fun i => let a := 256 + 96 * i
      allZero (s.flashBytes (a + 1) 1) && allZero (s.flashBytes (a + 4) 4) && allZero (s.flashBytes (a + 88) 8)) &&
    sectionsOk h.imageLen h.sections

/-- The key check of R485. -/
def State.keyOk (s : State) : Bool :=
  let k := s.flashNat 38 1
  match lget none s.keySlots k with
  | none => false
  | some d => !lget true s.revoked k && d == BitVec.ofNat 512 (beNat (sha512 (s.flashBytes 3328 133)))

/-- The signature check of R486: an uncompressed point, r and s of 66 bytes. -/
def State.signatureOk (s : State) : Bool :=
  s.flashByte 3328 == 4 &&
    ecdsaVerify (beNat (s.flashBytes 3329 66), beNat (s.flashBytes 3395 66)) (sha512 (s.flashBytes 0 3464))
      (beNat (s.flashBytes 3464 66)) (beNat (s.flashBytes 3530 66))

/-- The code of the header checks of order 3 (R478, R480 to R482, R485, R486, R499), 0 for none. -/
def State.imageCode (s : State) : Byte :=
  if !s.flash0 then 0x01
  else if s.flashNat 0 4 ≠ 0x50540059 then 0x02
  else if s.readHeader.twoFlash && !s.flash1 then 0x01
  else if !s.formatOk then 0x03
  else if !s.keyOk then 0x04
  else if !s.signatureOk then 0x05
  else 0

/-- Every check of orders 3 and 11 that needs no die (R503). -/
def State.verifyCode (s : State) : Byte :=
  if s.imageCode ≠ 0 then s.imageCode else if s.readHeader.sections.all s.sectionOk then 0 else 0x07

/-! ### Orders 2 and 3 -/

/-- RANK and SITE of a placement record (R488). -/
def placementRecord (b : List Byte) : Option (Nat × Nat) :=
  let w := leNat ((b.drop 2).take 2)
  if b.length ≠ 16 || leNat (b.take 2) ≠ 0x5059 || !allZero ((b.drop 4).take 8) ||
      leNat ((b.drop 12).take 4) ≠ (crc32c (b.take 12)).toNat then none
  else some (bits w 10 0, bits w 13 11)

/-- Order 3 (R475, R485, R486, R488, R503): an open journal comes before the image it explains. -/
def State.readPattern (s : State) : State :=
  let r := s.startup.board.eeprom.bind placementRecord
  let s := match r with
    | some (rank, site) =>
      ({ s with startup := { s.startup with rank := BitVec.ofNat 11 rank, site := BitVec.ofNat 3 site } } : State).updCrown fun c =>
        { c with rankNow := BitVec.ofNat 11 rank }
    | none => s
  if s.flash0 && s.journal then s.refuse 0x06
  else
    let code := s.imageCode
    let s := if code = 0x01 || code = 0x02 then s else { s with startup := { s.startup with header := some s.readHeader } }
    if code ≠ 0 then s.refuse code
    else
      let s := { s with startup := { s.startup with keySlot := BitVec.ofNat 2 s.header.keySlot } }
      if r.isNone || s.routeRanks ≤ s.startup.rank.toNat then s.refuse 0x08 else s.doneOrder 3

/-- Whether the input lies outside the operating range (R499, R537). -/
def State.inputOut (s : State) : Bool := s.power.below40 || decide (60000 < s.power.vin)

/-- The check of orders 1 to 12 against the input (R499, R537). -/
def State.checkInput (s : State) : State :=
  if s.startOn && s.inputOut && 1 ∈ s.startup.done && 12 ∉ s.startup.done then s.refuse 0x14 else s

/-- Order 2 (R475, R500): boot ROM samples the strap, looks for the flash devices, and draws the identity key once. -/
def State.boot (s : State) : State :=
  let b := s.startup.board
  let s := { s with flash0 := b.flash0, flash1 := b.flash1, powerUps := s.powerUps + 1
                    idKey := match s.idKey with | some k => some k | none => some (Config.identityKey s.powerUps)
                    startup := { s.startup with forced := b.forceService, service := b.forceService } }
  let s := (s.doneOrder 1).doneOrder 2
  if b.forceService then s
  else
    let s := s.checkInput
    if s.startup.refusal ≠ 0 then s else s.readPattern

/-- What a die keeps through reset: rows that post-package repair has replaced (R257). -/
def keepRepairs (t : Tbl Hub) : Tbl Hub := t.filterMap fun e => if e.2.repaired = [] then none else some (e.1, { repaired := e.2.repaired })

/-- The device as reset leaves it (R477): fuses, flash, pins, board and input stay. -/
def State.wiped (s : State) : State :=
  let w := s.power
  { pending := s.pending
    power := { rails := w.rails, samples := w.samples, vin := w.vin, iin := w.iin, below40 := w.below40, below38 := w.below38,
               below36 := w.below36, below32 := w.below32, above62 := w.above62 }
    startup := { board := s.startup.board }, hubs := keepRepairs s.hubs, flash := s.flash, flash0 := s.flash0, flash1 := s.flash1
    journal := s.journal, keySlots := s.keySlots, revoked := s.revoked, idKey := s.idKey, powerUps := s.powerUps, rstN := s.rstN
    pwrOk := s.pwrOk, thermLow := s.thermLow, free := s.free }

/-- The input stage starts to charge once PWR_OK is high and the input at 40 V or more (R475, R538). -/
def State.tryCharge (s : State) : State :=
  if s.power.rails = .off && s.pwrOk && decide (40000 ≤ s.power.vin) then { s with power := { s.power with rails := .charging } } else s

/-- PWR_OK_RISE (R475, R538). -/
def execPwrOkRise (s : State) : Out := .next ({ s with pwrOk := true } : State).tryCharge

/-- PWR_OK_FALL (R477): back to order 1, and memory is lost. -/
def execPwrOkFall (s : State) : Out :=
  .next (if !s.pwrOk then s
    else let s := s.wiped
         { s with pwrOk := false, power := { s.power with rails := .off } })

/-- INPUT_CHARGE_DONE (R475 order 1, R538): the crown's rails are up; order 2 follows where RST_N is high. -/
def execInputChargeDone (s : State) : Out :=
  .next (if s.power.rails ≠ .charging then s
    else
      let s := ({ s with power := { s.power with rails := .up } } : State).doneOrder 1
      if s.rstN then s.boot else s)

/-- RST_N_ASSERT (R477): every die returns to reset; order 1 stands where the rails are up. -/
def execRstNAssert (s : State) : Out :=
  .next (let s := { s.wiped with rstN := false }
         if s.power.rails = .up then s.doneOrder 1 else s)

/-- RST_N_RELEASE (R475 orders 2 and 3). -/
def execRstNRelease (b : Board) (s : State) : Out :=
  .next (if s.rstN then s
    else
      let s := { s with rstN := true, startup := { s.startup with board := b } }
      if s.power.rails = .up then s.boot else s)

/-! ### Orders 4 to 8 -/

/-- SELF_TEST_DONE (R490, R434, R427, R430, R475 orders 4 to 6): results and revisions, spare mapping, and the channels' training. A
hub that fails leaves the package degraded. -/
def execSelfTestDone (r : SelfTest) (s : State) : Out :=
  .next (if !s.startOn || 3 ∉ s.startup.done || 4 ∈ s.startup.done then s
    else
      let s := (List.range 56).foldl (fun s p => s.updTile p fun x =>
        let ok := decide (p ∉ r.badTiles)
        { x with selfTestOk := ok, revision := if ok then lget 0 r.tileRev p else 0xFF }) s
      let s := s.eachHub fun h x => { x with selfTestOk := decide (h ∉ r.badHubs), revision := lget 0 r.hubRev h }
      if (List.range 8).any fun h => decide (h ∈ r.badHubs) then s.refuse 0x0B
      else
        let s := (((s.doneOrder 4).mapTilesOver).doneOrder 5).retrain r.groups
        let s := ((s.eachHub fun _ x => { x with tileMap := [] }).mapTilesOver).sendVers.mapWays
        if s.isDegraded then s.refuse 0x0B else s)

/-- SLOW_REQ of the PLACEMENT section (R483), none where the section's digest fails (R487). -/
def State.slowReq (s : State) : Option Nat :=
  match s.header.section? 1 0 with
  | none => none
  | some x => if s.sectionOk x then some (bits (s.flashNat x.offset 8) 2 0) else none

/-- MEMORY_TRAIN_DONE (R209, R211, R231, R491, R475 orders 7 and 8): HUB_TIER_CFG is set, and every valid bit is cleared. -/
def execMemoryTrainDone (r : MemTrain) (s : State) : Out :=
  .next (if !s.startOn || 6 ∉ s.startup.done || 7 ∈ s.startup.done then s
    else
      let slow := fun (h : Nat) => lget (0, 0) r.slow h
      let size := (slow 0).1
      let s := s.eachHub fun h x => { x with hbmStacks := min 3 (lget 0 r.hbm h), slowSize := if 3 < (slow h).1 then 0 else (slow h).1 }
      match s.slowReq with
      | none => s.refuse 0x07
      | some req =>
        if ((List.range 8).any fun h => lget 0 r.hbm h ≠ 3 || (slow h).1 ≠ size || (slow h).2 ≠ size) || 3 < size || size < req then
          s.refuse 0x0C
        else
          let s := ({ s with mem := [], memErr := [], poison := [] } : State).mapHubs fun x => { x.writeSram 0 (fun _ => true) with validHbm := [], validSlow := [] }
          (s.doneOrder 7).doneOrder 8)

/-! ### Order 11 -/

/-- What reading the sections gives (R482, R268, R373, R459, R483, R529): every mould set that decodes, the placement, the device's
route block, twins, the ports' equaliser taps, re-shard tables and time settings. -/
def State.readSections (s : State) : Loaded :=
  let h := s.header
  let rd := fun (x : Section) (o : Nat) => s.flashNat (x.offset + o) 8
  let of := fun (t : Nat) => h.sections.filter fun x => x.type == t
  { sets := (of 2).filterMap fun x => (decodeSet (rd x)).bind fun m => if m.mapping = x.index then some m else none
    placement := (((of 1).head?).map fun x => decodePlacement (rd x)).getD {}
    route := s.flashRoute s.startup.rank.toNat, routeRanks := s.routeRanks
    twins := (((of 5).head?).map fun x => (List.range (x.length / 2)).map fun i => s.flashNat (x.offset + 2 * i) 2).getD []
    portEq := (((of 6).head?).map fun x => (List.range (x.length / 8)).map fun i => BitVec.ofNat 64 (rd x (8 * i))).getD []
    reshards := (of 3).map fun x => decodeReshard (rd x) x.length
    time := ((of 7).head?).map fun x => decodeTime (rd x) }

/-- Size a port's far-link buffer needs for its flight (R214), in bytes: 200 GB/s are 200 bytes in a nanosecond. -/
def farLinkNeed (f : Nat) : Nat := 200 * (2 * f + 2000)

/-- Whether TIME_SRC is reserved, or the TIME section is missing or names a reserved mode (R412, R529). -/
def Loaded.timeBad (l : Loaded) : Bool :=
  let t := l.route.timeSrc
  !(decide (t < 16) || t == 0x1E || t == 0x1F) || (t == 0x1F && l.time.isNone) || (match l.time with | some x => decide (1 < x.ppsMode) | none => false)

/-- Every check of one mould set among those loaded (R306), for the rank that this device serves. -/
def State.mouldOk (s : State) (l : Loaded) (rank : Nat) (m : MouldSet) : Bool :=
  m.contract == s.header.contract && m.areasOk l.placement (namedRanges l.sets) && s.setOk l.placement m rank

/-- Whether the links that are up have the fabric port version and the features that the pattern requires (R383). -/
def State.linksMet (s : State) : Bool :=
  let need := Config.portNeed s.header.digest
  s.wiredPorts.all fun q =>
    let p := s.port (q / 2) (q % 2)
    !p.up || (decide (need.1.toNat ≤ p.version.toNat) && p.features &&& need.2 == need.2)

/-- The refusal code that mould load finds (R306, R383, R406, R214, R412, R432, R433, R484, R489, R493, R499), 0 for none. -/
def State.loadCode (s : State) : Byte :=
  let l := s.loaded
  let p := l.placement
  let me := s.startup.rank.toNat
  let h := s.header
  let dflt := l.sets.find? fun m => m.mapping == h.defaultSet
  let flights := s.wiredPorts.map fun q => (q, (s.port (q / 2) (q % 2)).flight)
  let sets := (h.sections.filter fun x => x.type == 2).length
  let initBad := h.initSet ≠ 0xFFFF && (match dflt, l.sets.find? fun m => m.mapping == h.initSet with
    | some d, some i => !sameTagged d i
    | _, _ => true)
  let named := namedRanges l.sets
  if !s.placementOk p (named ++ l.sets.flatMap MouldSet.areas) || !areasApart l.sets || !slotsOk p l.sets ||
      !(l.sets.all fun m => m.areasOk p named) then 0x0D
  else if flights.any fun x => decide (600000 < x.2) then 0x0F
  else if flights.any fun x => decide (s.flSize (x.1 / 2) (x.1 % 2) < farLinkNeed x.2) then 0x10
  else if h.contract ≠ 1 || l.sets.any (fun m => m.contract != h.contract) then 0x09
  else if !s.featuresMet || !s.linksMet then 0x0A
  else if l.sets.length ≠ sets || dflt.isNone || initBad || l.timeBad || !(l.sets.all fun m => s.setOk p m me) ||
      !(l.reshards.all fun r => reshardOk p l.sets r) then 0x11
  else match dflt with
    | none => 0x11
    | some d => if me < d.ranks && s.bindSite ≠ s.startup.site.toNat then 0x08 else 0

/-- Copy the pieces of a mould set into the hubs' mould areas (R268). -/
def State.copySet (s : State) (x : Section) : State :=
  let rd := fun (o : Nat) => s.flashNat (x.offset + o) 8
  (List.range 8).foldl (fun s h =>
    (placePieces (bits (rd (56 + 8 * h)) 41 0) (areaPieces rd h)).foldl (fun s p =>
      (s.writeMem p.2.2 ((s.flashBytes (x.offset + p.1) p.2.1).map some)).1) s) s

/-- What a load that is refused by nothing does to the dies: mould areas, instruction stores, fettling, way maps and time (R252, R268,
R270, R423, R527). -/
def State.install (s : State) : State :=
  let p := s.loaded.placement
  let s := (s.header.sections.filter fun x => x.type == 2).foldl State.copySet s
  let s := s.eachHub fun _ x => { x with fetPeriod := BitVec.ofNat 8 p.fettlePeriod, fetEnable := p.fettleEn }
  s.loadMoulds

/-- Take the time source of the route block (R412, R527). -/
def State.takeTimeSource (s : State) : State :=
  let t := s.loaded.route.timeSrc
  { s with time := { s.time with src := t % 32, state := if t = 0x1E then .free else s.time.state } }

/-- MOULD_LOAD (R475 orders 9 to 11): once the bitmap is clear and every connected port is up and measured. -/
def execMouldLoad (s : State) : Out :=
  .next (if !s.startOn || 8 ∉ s.startup.done || 11 ∈ s.startup.done || !s.portsUp then s
    else
      let s := (s.doneOrder 9).doneOrder 10
      if !(s.header.sections.all s.sectionOk) then s.refuse 0x07
      else
        let l := s.readSections
        let known := l.sets.find? fun m => m.mapping == s.header.defaultSet
        let spare : Bool := match known with
          | some m => decide (m.ranks ≤ s.startup.rank.toNat)
          | none => false
        let s : State := { s with loaded := { l with loaded := known.isSome }, startup := { s.startup with spare := spare } }
        let s := s.updCrown fun c => { c with mapping := s.header.defaultSet }
        let s := s.takeTimeSource
        let code := s.loadCode
        if code ≠ 0 then s.refuse code else s.install.doneOrder 11)

/-! ### Order 12 -/

/-- Whether an import runs (R494). -/
def State.importing (s : State) : Bool := (s.opHandle fun o => match o with | .importing _ _ _ _ => true | _ => false).isSome

/-- Whether a device's READY has been released (R494). -/
def State.readyDue (s : State) : Bool :=
  let go := s.startup.imported || s.startup.hostStart || (s.header.autoStart && s.header.initSet != 0xFFFF)
  s.startup.refusal ≠ 0 || (11 ∈ s.startup.done && go && !s.importing)

/-- Whether this device's message reaches the coordinator's direction: it is the coordinator, or its route's port is up. -/
def State.coordReachable (s : State) : Bool :=
  s.isCoord || (match s.routePort s.coord with | some (h, m) => (s.port h m).up | none => false)

/-- STARTUP_READY_SEND (R494, R476): the READY of start-up, to the coordinator, EPOCH 0. -/
def execStartupReadySend (s : State) : Out :=
  .next (if !s.crownOn || s.startup.service || !s.loaded.loaded || s.startup.readySent || !s.readyDue || !s.coordReachable then s
    else
      let b := s.readyBody true
      let s := (if s.startup.refusal = 0 then s.doneOrder 12 else s).updCrown fun c => { c with leader := BitVec.ofNat 11 s.coord }
      let s := { s with startup := { s.startup with readySent := true } }
      if s.isCoord then s.startReady s.crown.rankNow.toNat b else s.sendPrioAs 0 s.coord 1 (.ready b))

end Sys2Proof.Machine
end

