-- ==== Sys2Proof/Machine/Power.lean ====
section
/-! DEFINITION. Power (R437 to R440, R536 to R558, R565): the package budget and its cuff messages, a die's rail, the input's
thresholds, quench and recovery, and what mitten and quench keep (R554). -/
namespace Sys2Proof.Machine

/-! ### Dies -/

/-- Whether hubs and tiles are powered (R475 order 4, R502, R545, R552). -/
def State.diesOn (s : State) : Bool :=
  s.crownOn && decide (3 ∈ s.startup.done) && !s.startup.service && !s.power.mitten && !s.power.quenched

/-- Power state of a die by its R446 code. -/
def State.cuffOf (s : State) (d : Nat) : Cuff := if d < 48 then (s.ltile d).cuff else (s.hub (d - 48)).cuff

/-- Change the power state of a die. -/
def State.updCuff (s : State) (d : Nat) (f : Cuff → Cuff) : State :=
  if d < 48 then s.updLtile d fun x => { x with cuff := f x.cuff } else s.updHub (d - 48) fun x => { x with cuff := f x.cuff }

/-! ### The package budget -/

/-- Sag ceiling (R542) of an input in mV. -/
def sagCeiling (vin : Nat) : Nat := if 38000 ≤ vin then 35 else max 15 (35 - (38000 - vin) / 200)

/-- Whether the diagnostic replay with RAMP_0 runs (R548). -/
def State.rampTest (s : State) : Bool := match s.crown.openStep with | some o => o.testRamp | none => false

/-- K of an interval (R539, R548). -/
def State.ceilingNow (s : State) : Nat :=
  if s.rampTest || s.thermLow then 15 else if s.power.below38 then sagCeiling s.power.vin else 35

/-- The soft-start value of an interval in 1/16 W (R549): t is 100 us for each interval since its start. -/
def softValue (p0 ms n : Nat) : Nat := (16 * ((p0 : Int) + ((5200 : Int) - p0) * n / (10 * ms))).toNat

/-- B of an interval in 1/16 W (R539, R548), rounded down. -/
def State.budgetNow (s : State) : Nat :=
  if s.rampTest then 16 * 2600
  else
    let b := match s.power.soft with
      | some (p0, ms, n) => min (16 * 5200) (softValue p0 ms n)
      | none => 16 * 5200
    min b (16 * 130 * s.power.vin / 1000)

/-- The dies that share the budget: 48 active tiles, then 8 hubs (R540). -/
def budgetDies : List Nat := List.range 56

/-- want[d] in 1/16 W (R540). -/
def State.want (s : State) (d : Nat) : Nat :=
  let r := tget (0, false, 0) s.power.reports d
  max (16 * (if d < 48 then 20 else 25)) (if r.2.1 then r.1 * 5 / 4 else r.1)

/-- Whether a mould that this device runs has a filler-permitted wait (R101, R550). -/
def State.fillable (s : State) : Bool :=
  s.mouldSet.tiles.any fun x => x.1.1 == s.role && x.2.pours.any fun l => l.any fun e => e.head.fillerOk

/-- n of the load floor after an interval (R550): moulds without a filler-permitted wait get none. -/
def State.floorStep (s : State) (b pin : Nat) : Nat :=
  let f := s.mouldSet.step.loadFloor
  let p := s.power
  let floor := min b (16 * f * p.pMean / 100)
  if f = 0 || !p.floorOn || !s.fillable then 0
  else if 16 * pin < floor then min 48 (p.floorTiles + 4)
  else if 105 * floor < 1600 * pin then p.floorTiles - 4
  else p.floorTiles

/-- BUDGET_INTERVAL (R437, R539, R540, R549, R550): measured input power and the fixed consumers' share, in W. -/
def execBudgetInterval (pinW fixedW : Nat) (s : State) : Out :=
  .next (if !s.diesOn then s
    else
      let p := s.power
      let soft := match p.soft with
        | some (p0, ms, n) => if 10 * ms ≤ n + 1 then none else some (p0, ms, n + 1)
        | none => none
      let s := { s with power := { p with soft := soft, pSum := (p.pSum.1 + pinW, p.pSum.2 + 1) } }
      let b := s.budgetNow
      let k := s.ceilingNow
      let n := s.floorStep b pinW
      let avail := b - 16 * fixedW
      let sum := (budgetDies.map s.want).sum
      let epoch := p.epoch + 1
      let out := budgetDies.map fun d =>
        (d, epoch, BitVec.ofNat 16 (min 0xFFFF (avail * s.want d / sum)), BitVec.ofNat 8 k, decide (d < n))
      { s with power := { s.power with pin := pinW, ceiling := k, floorTiles := n, epoch := epoch, cuffs := s.power.cuffs ++ out } })

/-- BUDGET (R17, R437): the highest EPOCH received applies; the die answers with a REPORT. A tile's passes through its hub. FLAGS stand as
in the status register. -/
def execBudget (index : Nat) (s : State) : Out :=
  .next (match s.power.cuffs[index]? with
    | none => s
    | some (d, e, b, k, f) => if !s.crownReach d then s else
      let s := { s with power := { s.power with cuffs := ldel s.power.cuffs index } }
      let s := s.updCuff d fun c =>
        let c := { c with power := if c.acc.2 = 0 then c.power else BitVec.ofNat 16 (c.acc.1 / c.acc.2), acc := (0, 0) }
        if e.toNat < c.epoch.toNat then c else { c with epoch := e, budget := b, ceiling := k, floorReq := f, stale := false }
      let c := s.cuffOf d
      let flags := BitVec.ofNat 3 (4 * b2n c.hot + 2 * b2n c.stale + b2n c.throttled)
      { s with power := { s.power with cuffReports := s.power.cuffReports ++ [(d, c.epoch, c.power, c.rail, c.tj, flags)] } })

/-- REPORT (R17, R437): POWER, THROTTLED and TJ of a die reach the crown. -/
def execReport (index : Nat) (s : State) : Out :=
  .next (match s.power.cuffReports[index]? with
    | none => s
    | some (d, _, p, _, tj, f) => if !s.crownReach d then s else
      { s with power := { s.power with cuffReports := ldel s.power.cuffReports index
                                       reports := tset s.power.reports d (p.toNat, f.getLsbD 0, tj.toNat) } })

/-! ### A die's rail -/

/-- A throttle event of a die (R438, R541). -/
def State.throttled (s : State) (d : Nat) : State := if d < 48 then s.tileDross (s.phys d) 0x1B 1 else s.hubDross (d - 48) 0x1B 1

/-- RAIL_CONTROL_TICK (R438 to R440, R541): one step at most in 10 us. The rail falls for staleness, heat, ceiling or budget, in this
order of looking; one that stands at 0.65 V stays there. -/
def execRailControlTick (d : RailDie) (power : W16) (tj : Nat) (s : State) : Out :=
  let d := d.val
  .next (if !s.diesOn then s
    else
      let c := s.cuffOf d
      let hot := decide (105 ≤ tj) || (c.hot && decide (103 ≤ tj))
      let above := decide (c.budget.toNat < power.toNat)
      let high := decide (c.ceiling.toNat < c.rail.toNat)
      let down := (c.stale || hot || high || above) && decide (15 < c.rail.toNat)
      let up := !c.stale && !hot && !high && !above && decide (100 * power.toNat < 95 * c.budget.toNat) &&
        decide (c.rail.toNat < c.ceiling.toNat) && decide (c.rail.toNat < 35)
      let s := s.updCuff d fun c =>
        { c with tj := BitVec.ofNat 8 (min 255 tj), hot := hot, acc := (c.acc.1 + power.toNat, c.acc.2 + 1)
                 rail := if down then c.rail - 1 else if up then c.rail + 1 else c.rail
                 throttled := c.throttled || (down && above) }
      if down && (high || above) then s.throttled d else s)

/-- BUDGET_STALE_TIMEOUT (R440). -/
def execBudgetStaleTimeout (d : RailDie) (s : State) : Out :=
  .next (if s.diesOn then s.updCuff d.val fun c => { c with stale := true } else s)

/-! ### Losing power -/

/-- A tile die without power (R554): group marks lie in its hub; dross counters, revision and self-test result stay. -/
def Tile.unpowered (x : Tile) : Tile := { dross := x.dross, revision := x.revision, selfTestOk := x.selfTestOk }

/-- A hub without power (R554): memory, valid bits, tags, map-out list, partner slots, group marks and counters stay. -/
def Hub.unpowered (x : Hub) : Hub :=
  { x.cleared with ingress := [], passed := [], slots := [], openRow := [], resps := [], adds := [], spill := [], ckpt := []
                   peerDig := [], ports := [], cuff := {}, traceCount := [], updStarted := 0, updDone := [] }

/-- The crown removes power from tiles, ports and hub logic (R545, R552). -/
def State.dropPower (s : State) : State :=
  let s := ((s.mapHubs Hub.unpowered).mapTiles Tile.unpowered).updCrown fun c => { c with signals := [] }
  { s with power := { s.power with reports := [], cuffs := [], cuffReports := [], quenchCuffs := [] } }

/-! ### Quench -/

/-- A trip (R544, R545, R565, R572): the QUENCH fault, then a QUENCH cuff message to every hub and tile. A device that deferred its
abort begins it. Without powered dies nothing is left to shut down, and the trip is only recorded. TJ of a trip that no hot junction
causes is the crown's own temperature, which no command brings: a free value. -/
def State.trip (s : State) (cause die tj : Nat) : State :=
  if !s.crownOn || s.power.quenching || s.power.quenched then s
  else
    let on := s.diesOn
    let f := if cause = 3 then (BitVec.ofNat 64 tj, s) else s.drawFree
    let s := f.2
    let s := if on then { s with power := { s.power with quenching := true } } else s
    let s := (s.crownDross 0x1E 1).crownFault 0x15 [(64, s.stepNo), (3, cause), (6, die), (13, s.power.vin / 10), (8, f.1.toNat)]
    let s := if s.crown.deferring then s.beginAbort true else s
    if on then { s with power := { s.power with quenchCuffs := budgetDies.map fun d => (d, s.crown.epoch) } } else s

/-- QUENCH_CUFF (R17, R545 order 3): the die stops issue and runs the local abort. -/
def execQuenchCuff (d : RailDie) (s : State) : Out :=
  let d := d.val
  .next (if !s.crownReach d then s else match takeFirst (fun (c : Nat × W32) => c.1 == d) s.power.quenchCuffs with
    | none => s
    | some (_, rest) =>
      let s := ({ s with power := { s.power with quenchCuffs := rest } } : State).updCuff d fun c => { c with quenched := true }
      if d < 48 then s.updLtile d Tile.aborted else s.updHub (d - 48) fun x => x.aborted s.crown.held.isSome)

/-- QUENCH_HUBS_DONE (R545 orders 4 and 5): every hub has completed its accepted requests and holds its memory in self-refresh. A die
that no cuff message can reach is not waited for (DESIGN CHOICE: the quench completes within its time whatever a line does). -/
def execQuenchHubsDone (s : State) : Out :=
  .next (if !s.power.quenching || (s.power.quenchCuffs.any fun q => s.crownReach q.1) || !s.hubsQuiet then s
    else { s.dropPower with power := { s.dropPower.power with quenching := false, quenched := true } })

/-- Restart order 2 of a device that waits for no GO (R546, R556): its channels and ports come up, and its stores are written. -/
def State.wakeDies (s : State) : State := ({ s with power := { s.power with waking := true } } : State).trainChans

/-- QUENCH_RECOVERY (R546): input within 40 to 60 V and the crown cool for 1 s. An aborting device goes to order 2 and on to READY. -/
def execQuenchRecovery (s : State) : Out :=
  .next (if !s.crownOn || !s.power.quenched || s.inputOut then s
    else
      let s := { s with power := { s.power with quenched := false } }
      if s.crown.rstate = .aborting then (s.reachOrder 2).retrainPorts.trainChans else s.wakeDies)

/-! ### The input -/

/-- Mean of a list, rounded down. -/
def meanOf (l : List Nat) : Nat := l.sum / l.length

/-- A threshold that the input falls below, released 0.5 V above it (R536). -/
def belowNow (was : Bool) (vin t : Nat) : Bool := if vin < t then true else if t + 500 ≤ vin then false else was

/-- INPUT_SAMPLE (R536 to R538, R542, R543, R555): the mean of the last 8 samples against every threshold. While the crown is off only
the input stage looks at it. -/
def execInputSample (mv ma : Nat) (s : State) : Out :=
  .next (
    let p := s.power
    let l := (p.samples ++ [(mv, ma)]).drop ((p.samples.length + 1) - 8)
    let v := meanOf (l.map Prod.fst)
    let p := { p with samples := l, vin := v, iin := meanOf (l.map Prod.snd), above62 := decide (62000 < v) }
    if !s.crownOn then
      let s := { s with power := { p with below40 := decide (v < 40000), below38 := decide (v < 38000), below36 := decide (v < 36000)
                                          below32 := decide (v < 32000) } }
      if s.power.rails = .charging && decide (v < 36000) then { s with power := { s.power with rails := .off } } else s.tryCharge
    else
      let n := { p with below40 := belowNow p.below40 v 40000, below38 := belowNow p.below38 v 38000
                        below36 := belowNow p.below36 v 36000, below32 := belowNow p.below32 v 32000 }
      let n := { n with ride := n.below36 && !n.mitten }
      let fell := n.below38 && !p.below38
      let s := ({ s with power := n } : State).checkInput
      let s := if fell then s.crownDross 0x1C 1 else s
      if n.below32 && !n.mitten then s.trip 0 56 0
      else if 80000 < v then s.trip 2 56 0
      else s)

/-- RIDE_THROUGH_EXPIRY (R543). -/
def execRideThroughExpiry (s : State) : Out := .next (if s.power.ride then s.trip 1 56 0 else s)

/-- OVERVOLTAGE_EXPIRY (R537). -/
def execOvervoltageExpiry (s : State) : Out := .next (if s.power.above62 then s.trip 2 56 0 else s)

/-- LUG_OVERCURRENT (R565). -/
def execLugOvercurrent (_lug : Fin 4) (s : State) : Out := .next (s.trip 4 56 0)

/-- JUNCTION_TRIP (R544): at 115 degrees and above. -/
def execJunctionTrip (die : Fin 57) (tj : Nat) (s : State) : Out :=
  .next (if tj < 115 then s else s.trip 3 die.val (min 255 tj))

/-- THERM_ALERT (R539, R541): the level of THERM_ALERT_N, which the next interval reads. -/
def execThermAlert (low : Bool) (s : State) : Out := .next { s with thermLow := low }

end Sys2Proof.Machine
end

