-- ==== Sys2Proof/Machine/Time.lean ====
section
/-! DEFINITION. Time (R412, R413, R527 to R533): the servo and its states, time over the fabric, the time port's ordinary clock, and
1PPS in and out. Stamps are in units of 2^-16 ns. An offset is the source's counter minus this one. -/
namespace Sys2Proof.Machine

/-! ### The servo -/

/-- Largest correction: 500 ppm (R527). -/
def corrMax : Int := 327

/-- Clamp a correction (R527). -/
def clampCorr (c : Int) : Int := max (-corrMax) (min corrMax c)

/-- REF_CLK_100 cycles of 60 s. -/
def sixtySeconds : Nat := 6000000000

/-- Take a correction, and keep those of the last 60 s (R527, R531). -/
def Time.steer (t : Time) (c : Int) : Time :=
  let c := clampCorr c
  let old := t.corrLog.takeWhile fun e => decide (t.ticks < e.1 + sixtySeconds)
  { t with corr := c, corrLog := (t.ticks, c) :: (old ++ (t.corrLog.drop old.length).take 1) }

/-- Sum of corrections, each times the cycles it held since a tick; `till` is where the newest ends. -/
def corrSum (start : Nat) : Nat → List (Nat × Int) → Int
  | _, [] => 0
  | till, (a, c) :: t => c * ((till - max a start : Nat) : Int) + corrSum start (max a start) t

/-- Mean correction of the last 60 s (R531), rounded down; of a shorter history, since its start. -/
def Time.meanCorr (t : Time) : Int :=
  let first := (t.corrLog.getLast?.map Prod.fst).getD t.ticks
  let start := max first (t.ticks - sixtySeconds)
  if t.ticks ≤ start then t.corr else corrSum start t.ticks t.corrLog / ((t.ticks - start : Nat) : Int)

/-- Nanoseconds of an interval. -/
def inNs (n : Int) : Int := n * 65536

/-- Set the counter in one step (R530). -/
def Time.stepBy (t : Time) (off : Int) : Time :=
  let c := (((t.counter : Int) + off) % ((2 ^ 80 : Nat) : Int)).toNat
  { t with counter := c, stepped := true, lastSecond := c / 2 ^ 16 / 1000000000 }

/-- OFFSET of CRN_TIME_STATUS: whole nanoseconds, saturating (R535). -/
def offsetNs (off : Int) : Int := max (-(2 ^ 31 : Int)) (min (2 ^ 31 - 1) (off / 65536))

/-- An offset has been measured (R530, R531). -/
def Time.takeOffset (t : Time) (off : Int) (active : Bool) : Time :=
  let t := { t with offset := offsetNs off }
  let near := decide (-inNs 100 ≤ off ∧ off ≤ inNs 100)
  let far := decide (off < -inNs 1000000 ∨ inNs 1000000 < off)
  let good := if near then t.good + 1 else 0
  match t.state with
  | .unset => { t.stepBy off with state := .acquiring, good := 0 }
  | .locked => if far && !active then t.stepBy off else t.steer (Config.servo off t.corr)
  | .acquiring =>
    { t.steer (Config.servo off t.corr) with good := good, state := if 16 ≤ good then .locked else .acquiring }
  | .holdover => { t.steer (Config.servo off t.corr) with good := good, state := .acquiring }
  | .free => t

/-- A measured offset at the crown. -/
def State.takeOffset (s : State) (off : Int) : State := { s with time := s.time.takeOffset off (s.crown.job == .active) }

/-- TIME_SOURCE_LOSS (R531): a counter that follows a source holds the mean correction. A source lost lets another master in. -/
def execTimeSourceLoss (s : State) : Out :=
  .next (if !s.crownOn || (s.time.state ≠ .locked && s.time.state ≠ .acquiring) then s
    else
      let t := s.time
      { s with time := { t.steer t.meanCorr with
                         state := .holdover, sourceLost := true, good := 0, master := none, syncT2 := none, pair := none
                         delayT3 := none, lastT1 := none } })

/-! ### Time over the fabric -/

/-- TIME_SYNC_TIMER (R413): 16 times a second a rank that steers from a port sends its counter there. -/
def execTimeSyncTimer (s : State) : Out :=
  let q := s.loaded.route.timeSrc
  .next (if !s.crownOn || !s.loaded.loaded || 16 ≤ q || !(s.port (q / 2) (q % 2)).up then s
    else
      let t1 := s.time.counter
      let s := s.updPort (q / 2) (q % 2) fun p => p.sendPrio (s.prioHead 0 false 0) (.timeSync t1)
      { s with time := { s.time with lastT1 := some t1 } })

/-- A TIME_SYNC is taken (R413): answered only on a port that TIME_SERVE marks. -/
def State.onTimeSync (s : State) (m : PrioHead) : State :=
  let q := m.port.val
  if !bit s.loaded.route.timeServe q then s
  else s.updPort (q / 2) (q % 2) fun p => p.sendPrio (s.prioHead 0 false 0) (.timeReply s.time.counter s.time.counter)

/-- A TIME_REPLY is taken (R413): all four stamps give the offset. -/
def State.onTimeReply (s : State) (m : PrioHead) (t2 t3 : Nat) : State :=
  match m.port.val == s.loaded.route.timeSrc, s.time.lastT1 with
  | true, some t1 =>
    let t4 := s.time.counter
    let delay := (((t4 : Int) - t1) - ((t3 : Int) - t2)) / 2
    let off := ((t2 : Int) - t1) - delay - inNs (lget 0 s.loaded.route.asym m.port.val)
    ({ s with time := { s.time with lastT1 := none } } : State).takeOffset off
  | _, _ => s

/-! ### The time port -/

/-- Whether the time port serves a message (R528): TIMEPORT is the source, and the domain is the TIME section's. -/
def State.ptpOn (s : State) (m : PtpMsg) : Bool :=
  s.crownOn && s.loaded.loaded && s.loaded.route.timeSrc == 0x1F &&
    (match s.loaded.time with | some t => m.domain.toNat == t.domain | none => false)

/-- Whether a message comes from the chosen master (R528). -/
def State.fromMaster (s : State) (m : PtpMsg) : Bool :=
  s.ptpOn m && (match s.time.master with | some x => x.1 == m.source | none => false)

/-- The stamps of a Sync are known: the port sends its own Delay_Req (R528). -/
def Time.gotSync (t : Time) (t1 t2 : Nat) : Time :=
  { t with syncT2 := none, pair := some (t1, t2), delayT3 := some (BitVec.ofNat 16 t.delayReqs, t.counter), delayReqs := t.delayReqs + 1 }

/-- SYNC (R528): of a one-step master it carries t1, of a two-step one its Follow_Up does. -/
def execSync (m : PtpMsg) (s : State) : Out :=
  .next (if !s.fromMaster m then s
    else if m.twoStep then { s with time := { s.time with syncT2 := some (m.seqId, m.ingress) } }
    else { s with time := s.time.gotSync m.stamp m.ingress })

/-- FOLLOW_UP (R528). -/
def execFollowUp (m : PtpMsg) (s : State) : Out :=
  .next (match s.fromMaster m, s.time.syncT2 with
    | true, some (q, t2) => if q = m.seqId then { s with time := s.time.gotSync m.stamp t2 } else s
    | _, _ => s)

/-- DELAY_RESP (R528): the answer to the own Delay_Req completes the four stamps. -/
def execDelayResp (m : PtpMsg) (s : State) : Out :=
  .next (match s.fromMaster m, s.time.delayT3, s.time.pair with
    | true, some (q, t3), some (t1, t2) =>
      if q ≠ m.seqId then s
      else
        let delay := (((t2 : Int) - t1) + ((m.stamp : Int) - t3)) / 2
        let asym := match s.loaded.time with | some t => t.asym | none => 0
        let off := -(((t2 : Int) - t1) - delay - inNs asym)
        ({ s with time := { s.time with delayT3 := none, pair := none } } : State).takeOffset off
    | _, _, _ => s)

/-- Whether an Announce is better than another: the first field that differs decides, the lower one wins (R528; PRESUMED, the order
of IEEE 1588-2019). -/
def AnnounceBody.better (a b : AnnounceBody) : Bool :=
  let f := fun (x : AnnounceBody) => [x.priority1.toNat, x.clockClass.toNat, x.accuracy.toNat, x.variance.toNat, x.priority2.toNat,
    x.identity.toNat, x.stepsRemoved.toNat]
  match ((f a).zip (f b)).find? fun x => x.1 != x.2 with
  | some x => decide (x.1 < x.2)
  | none => false

/-- ANNOUNCE (R528): the best master that is heard becomes or stays the port's. -/
def execAnnounce (m : PtpMsg) (b : AnnounceBody) (s : State) : Out :=
  .next (if !s.ptpOn m then s
    else
      let take := { s with time := { s.time with master := some (m.source, b) } }
      match s.time.master with
      | none => take
      | some (src, old) =>
        if src = m.source then take
        else if AnnounceBody.better b old then
          { take with time := { take.time with syncT2 := none, pair := none, delayT3 := none } }
        else s)

/-! ### 1PPS -/

/-- Whether 1PPS in is used for phase (R529). -/
def State.ppsUse (s : State) : Bool := match s.loaded.time with | some t => t.ppsMode == 1 | none => false

/-- Signed distance from the counter to the nearest whole second, in 2^-16 ns. -/
def Time.toSecond (t : Time) : Int :=
  let sec : Nat := 1000000000 * 65536
  let r := t.counter % sec
  if 2 * r < sec then -(r : Int) else ((sec - r : Nat) : Int)

/-- PPS_EDGE (R532). -/
def execPpsEdge (highFor1us : Bool) (s : State) : Out :=
  .next (if !s.crownOn || !highFor1us || !s.ppsUse then s
    else
      let t := s.time
      let d := t.toSecond
      let soon := match t.ppsLast with | some x => decide (t.ticks < x + 50000000) | none => false
      let off := (t.state == .locked || t.state == .holdover) && decide (d < -inNs 1000000 ∨ inNs 1000000 < d)
      if soon || off then s.crownDross 0x1A 1
      else
        let t := { t.steer (Config.ppsServo d t.corr) with ppsLast := some t.ticks, pps := .locked }
        { s with time := { t with state := if t.state = .holdover && t.src = 0x1E then .free else t.state } })

/-- PPS_LOSS_TIMEOUT (R532): two seconds without an accepted edge; a counter without another source holds over. -/
def execPpsLossTimeout (s : State) : Out :=
  .next (if !s.crownOn || !s.ppsUse then s
    else
      let t := { s.time with ppsLost := true, pps := .missing }
      { s with time := if t.src = 0x1E && t.state = .free then { t.steer t.meanCorr with state := .holdover } else t })

/-- PPS_OUT_SECOND (R533): the counter passes a whole second. -/
def execPpsOutSecond (s : State) : Out :=
  let now := s.time.ns / 1000000000
  .next (if !s.crownOn || s.time.state = .unset || now ≤ s.time.lastSecond then s
    else { s with time := { s.time with ppsOut := true, lastSecond := now } })

/-- PPS_OUT_PULSE_END (R533): 100 ms after the rise. -/
def execPpsOutPulseEnd (s : State) : Out := .next { s with time := { s.time with ppsOut := false } }

end Sys2Proof.Machine
end

