-- ==== Sys2Proof/Machine/Registers.lean ====
section
/-! DEFINITION. The register map (R521, R534, R535): where every register lies, what it reads as, and what a write of each writable
register does. A register narrower than 64 bits reads zero-extended; reserved fields read as zero (R10). -/
namespace Sys2Proof.Machine

/-! ### Addresses -/

/-- A register by its die and byte offset (R534). -/
inductive RegAt where
  | crown (off : Nat)
  | hub (h off : Nat)
  | tile (t off : Nat)
  deriving DecidableEq, Repr

/-- Bases of the three ranges (R534). -/
def crownBase : Nat := 0x3F000000000
def hubBase : Nat := 0x3F100000000
def tileBase : Nat := 0x3F200000000

/-- The die whose range holds an address; none off an 8-byte boundary or outside every range. -/
def regAt (a : Nat) : Option RegAt :=
  if a % 8 ≠ 0 || a < crownBase then none
  else if a < hubBase then some (.crown (a - crownBase))
  else if a < hubBase + 8 * 0x1000000 then some (.hub ((a - hubBase) / 0x1000000) ((a - hubBase) % 0x1000000))
  else if tileBase ≤ a && a < tileBase + 48 * 0x100000 then some (.tile ((a - tileBase) / 0x100000) ((a - tileBase) % 0x100000))
  else none

/-- A register's value from its fields, lowest first: width and value. -/
abbrev fields : List (Nat × Nat) → Nat := packFields

/-- A dross counter register (R474). -/
def drossReg (t : Tbl Nat) (off : Nat) : Option Nat := if off < 0x200 then some (tget 0 t ((off - 0x100) / 8)) else none

/-! ### Crown registers -/

/-- CRN_START_STATUS (R506). -/
def State.startStatus (s : State) : Nat :=
  let x := s.startup
  fields [(13, 0), (8, x.peerCode.toNat), (11, x.peerRank.toNat), (2, x.keySlot.toNat), (11, x.rank.toNat), (3, x.site.toNat), (1, b2n x.forced),
    (1, b2n x.imported), (1, b2n x.spare), (1, b2n x.service), (4, s.orderNow), (8, x.refusal.toNat)]

/-- Lowest of the versions in use: 0 until one is known (R514). -/
def lowestVersion (l : List Nat) : Nat := ((l.filter (· ≠ 0)).foldl (fun (m : Option Nat) x => some (match m with | none => x | some y => min x y)) none).getD 0

/-- Whether the pattern has been verified (R514): its header has passed every check of order 3 but those of the rank. -/
def State.verified (s : State) : Bool :=
  s.startup.header.isSome && (s.startup.refusal.toNat == 0 || decide (6 < s.startup.refusal.toNat))

/-- CRN_VERSIONS (R514, R535). -/
def State.versions (s : State) : Nat :=
  let ports := s.hubs.flatMap fun e => (e.2.ports.filter fun p => p.2.up).map fun p => p.2.version.toNat
  let chans := s.hubs.flatMap fun e => e.2.chans.map fun c => c.2.version.toNat
  fields [(8, if s.verified then s.header.contract else 0), (8, lowestVersion chans), (8, lowestVersion ports),
    (8, if s.verified then s.header.format else 0), (8, s.link.version.toNat)]

/-- CRN_LINK_STATUS (R535). -/
def State.linkStatus (s : State) : Nat :=
  let l := s.link
  fields [(8, l.expected.toNat), (1, b2n l.up), (1, b2n l.downed), (2, 0), (4, l.outstanding), (4, l.lanes.toNat), (4, 0), (8, l.version.toNat),
    (16, l.flight.toNat)]

/-- JOB (R535). -/
def Job.code : Job → Nat
  | .none => 0
  | .active => 1
  | .suspended => 2
  | .ended => 3

/-- CRN_JOB_STATUS (R535). -/
def State.jobStatus (s : State) : Nat :=
  let c := s.crown
  fields [(3, c.job.code), (9, 0), (1, b2n c.cancelPending), (1, b2n c.suspend.isSome), (1, b2n c.switch.isSome), (1, b2n s.power.mitten)]

/-- STATE of CRN_RESTART_STATUS (R472). -/
def RState.code : RState → Nat
  | .idle => 0
  | .running => 1
  | .aborting => 2
  | .restarting => 3
  | .stalled => 4

/-- CRN_RESTART_STATUS (R472). -/
def State.restartStatus (s : State) : Nat :=
  let c := s.crown
  fields [(11, c.leader.toNat), (1, b2n c.priorIntact), (4, 0), (8, c.lastCode.toNat), (2, c.mode), (3, c.attempt), (3, c.rstate.code),
    (32, c.epoch.toNat)]

/-- Whether a step waits for its feed (R535). -/
def State.feedLate (s : State) : Bool :=
  s.crown.job == .active && s.crown.rstate == .running && s.crown.openStep.isNone && !(s.feed (s.crown.gen + 1)).whole

/-- CRN_FEED_STATUS (R535); before a mould load no step is expected. -/
def State.feedStatus (s : State) : Nat :=
  let n := s.nextFeed
  let done := ((s.feed n).complete.filter fun e => e.2).length
  if !s.loaded.loaded then fields [(1, b2n s.crown.crcBad), (1, b2n s.crown.rewound)]
  else fields [(1, b2n s.crown.crcBad), (1, b2n s.crown.rewound), (1, b2n s.feedLate), (13, 0), (16, done), (32, n)]

/-- STATE of CRN_TIME_STATUS (R535). -/
def TState.code : TState → Nat
  | .unset => 0
  | .free => 1
  | .acquiring => 2
  | .locked => 3
  | .holdover => 4

/-- PPS (R535). -/
def PState.code : PState → Nat
  | .unused => 0
  | .locked => 1
  | .missing => 2

/-- CRN_TIME_STATUS (R535). -/
def State.timeStatus (s : State) : Nat :=
  let t := s.time
  fields [(1, b2n t.sourceLost), (1, b2n t.ppsLost), (1, b2n t.stepped), (19, 0), (2, t.pps.code), (3, t.state.code), (5, t.src), (32, wrap 32 t.offset)]

/-- CRN_LOG_STATUS (R472). -/
def State.logStatus (s : State) : Nat := fields [(32, s.crown.overwritten.toNat), (12, s.crown.head.toNat)]

/-- STATE of CRN_PWR_STATUS (R558): the first that applies. -/
def State.powerState (s : State) : Nat :=
  let p := s.power
  if p.quenched then 3 else if p.mitten then 4 else if p.ride then 2 else if p.below38 then 1 else if p.soft.isSome then 5 else 0

/-- CRN_PWR_STATUS (R558). -/
def State.powerStatus (s : State) : Nat :=
  let p := s.power
  let filler := s.tiles.any fun t => t.2.clusters.any fun c => c.2.arr.filler
  let tj := (p.reports.map fun r => r.2.2.2).foldl max 0
  fields [(1, 0), (1, b2n filler), (1, b2n s.thermLow), (3, s.powerState), (7, 0), (7, p.floorTiles), (8, tj), (8, p.ceiling), (15, p.pin), (13, p.vin / 10)]

/-- A word of a log entry (R472). -/
def State.logWord (s : State) (i w : Nat) : Nat :=
  if thas s.crown.log i then leNat (((tget {} s.crown.log i).bytes.drop (8 * w)).take 8) else 0

/-- A crown register (R534). -/
def State.crownReg (s : State) (off : Nat) : Option Nat :=
  if off = 0x00 then some s.startStatus
  else if off = 0x08 then some s.versions
  else if off = 0x10 then some s.linkStatus
  else if off = 0x18 then some s.jobStatus
  else if off = 0x20 then some s.restartStatus
  else if off = 0x28 then some s.crown.window.toNat
  else if off = 0x30 then some s.crown.genDigest.toNat
  else if off = 0x38 then some s.feedStatus
  else if off = 0x40 then some (s.time.ns % 2 ^ 64)
  else if off = 0x48 then some s.time.sub.toNat
  else if off = 0x50 then some s.timeStatus
  else if off = 0x60 then some s.logStatus
  else if off = 0x68 then some 0
  else if off = 0x70 then some s.powerStatus
  else if 0x100 ≤ off && off < 0x200 then drossReg s.crown.dross off
  else if 0x200 ≤ off && off < 0x240 then some (s.lastWord ((off - 0x200) / 8)).toNat
  else if 0x10000 ≤ off && off < 0x50000 then some (s.logWord ((off - 0x10000) / 64) ((off - 0x10000) % 64 / 8))
  else none

/-! ### Hub registers -/

/-- HUB_TILE_MAP (R442). -/
def Hub.tileMapReg (x : Hub) : Nat :=
  packFields ((List.range 7).map fun k =>
    let e := tget (false, false, 0) x.tileMap k
    (8, 128 * b2n e.1 + 64 * b2n e.2.1 + (if e.1 then e.2.2 else 0)))

/-- Accepted requests of the fullest bank queue (R236). -/
def Hub.deepest (x : Hub) : Nat := (x.slots.map fun a => (x.slots.filter fun b => b.bank == a.bank).length).foldl max 0

/-- HUB_SORT_STATUS (R236). -/
def State.sortStatus (s : State) (h : Nat) : Nat :=
  let x := s.hub h
  fields [(13, x.slots.length), (1, 0), (7, x.deepest), (15, x.adds.length), (12, x.spillRuns), (16, s.nextFence h)]

/-- HUB_PLATE_CLEAR (R235). -/
def Hub.plateReg (x : Hub) : Nat :=
  fields [(27, x.pcCount.toNat), (3, 0), (26, x.pcPlate.toNat), (1, b2n x.pcTier), (4, 0), (1, b2n x.pcRefused), (1, b2n x.pcBusy)]

/-- Share of the fettling pass done, in thousandths (R259). -/
def State.fettleProgress (s : State) (h : Nat) : Nat :=
  let ps := s.fettlePlates h
  let c := (s.hub h).fetCursor
  let done := (ps.map fun p => if c ≤ p then 0 else min 128 ((c - p) / 32)).sum
  if ps = [] then 0 else done * 1000 / (128 * ps.length)

/-- HUB_FETTLE_STATUS (R259). -/
def State.fettleStatus (s : State) (h : Nat) : Nat :=
  let x := s.hub h
  fields [(10, s.fettleProgress h), (6, 0), (1, b2n x.fetListFull), (7, x.mapout.length), (8, 0), (32, x.fetPasses.toNat)]

/-- HUB_UPD_STATUS (R333). Of what an item waits for, the model shows N2, sums and digests; committed state is ready whenever an element
is taken. -/
def State.updStatus (s : State) (h : Nat) : Nat :=
  let x := s.hub h
  let o := x.upds.head?
  let r := s.hubRun h 2
  let norm := match (s.hubList h 2)[r.pos]? with
    | some (.item _ it) => (match it.body with
      | .update w => w.clip && x.n2.isNone && !s.crown.rebuild && (s.crown.openStep.isSome)
      | _ => false)
    | _ => false
  let sum := match o with | some u => !s.crown.rebuild && (x.ep u.epIn).data == [] | none => false
  fields [(1, 0), (1, b2n x.updDigestBad), (1, b2n x.updNonfinite), (1, b2n (x.needDig ≠ [])), (1, b2n sum), (1, 0), (1, b2n norm), (1, b2n x.relabel),
    (8, x.upds.length), (32, (o.map UpdRun.next).getD 0), (16, (o.map UpdRun.pos).getD 0)]

/-- HUB_RED_STATUS (R378). -/
def State.redStatus (s : State) (h : Nat) : Nat :=
  let x := s.hub h
  let live := x.nodes.filter fun n => !n.done
  let r : Bool × Bool × Nat := match s.crown.reshard with
    | some (_, round, place) => (true, place, round)
    | none => (false, false, 0)
  let waits := live.any fun n => n.w.slots.zipIdx.any fun z => (s.slotElem h n z.2 z.1).isNone
  let credit := live.any fun n => !s.credit n.w.outHub n.epOut
  fields [(1, b2n x.origin), (1, b2n x.backupBad), (1, b2n x.gauntBad), (16, r.2.2), (1, b2n r.2.1), (1, b2n r.1), (1, b2n credit), (1, b2n waits),
    (9, x.chunkBuffers), (16, min 0xFFFF x.late), (16, (live.head?.map NodeRun.pos).getD 0)]

/-- Whether a hub's checkpoint streams run (R458): one still waits for its turn, or not all of one has been sent. -/
def Hub.sending (x : Hub) : Bool := x.ckpt ≠ [] || x.ports.any fun p => p.2.tx.any fun t => t.kind == 1

/-- HUB_CKPT_STATUS (R458). -/
def Hub.ckptStatus (x : Hub) : Nat :=
  let got := fun (c : CkptSlot) => if c.state = 1 then (c.written.map fun r => r.2 - r.1).sum else 0
  fields [(1, 0), (1, b2n x.ckptBad), (1, b2n x.restoring), (1, b2n x.sending), (2, x.slot1.state), (2, x.slot0.state), (24, 0),
    (32, (got x.slot0 + got x.slot1) / 2 ^ 20)]

/-- HUB_CUFF_STATUS and TIL_CUFF_STATUS (R443). -/
def Cuff.reg (c : Cuff) : Nat :=
  fields [(1, b2n c.throttled), (1, b2n c.stale), (1, b2n c.hot), (5, 0), (8, c.epoch.toNat), (8, c.tj.toNat), (8, c.rail.toNat), (16, c.power.toNat),
    (16, c.budget.toNat)]

/-- HUB_PORT_STATUS (R415). -/
def State.portStatus (s : State) (h m : Nat) : Nat :=
  let p := s.port h m
  fields [(1, b2n (s.wire h m).1), (1, b2n p.up), (1, b2n p.measured), (1, b2n p.failed), (4, 0), (8, p.skew.toNat),
    (8, p.lanes.toNat), (1, 0), (4, p.version.toNat), (4, p.farPort.toNat), (11, p.farRank.toNat), (20, p.flight)]

/-- HUB_D2D_STATUS (R441): a channel that the hub does not have reads ABSENT and zero. -/
def State.chanStatus (s : State) (h c : Nat) : Nat :=
  if !hasChan h c then 0
  else
    let x := (s.hub h).chan c
    let state := if x.state = 4 then 4 else x.stateNow c
    fields [(3, state), (1, b2n x.fault), (8, 0), (7, x.rx.out.length), (7, x.tx.out.length), (7, if state = 4 then 0 else (x.rx.active c).length),
      (7, if state = 4 then 0 else (x.tx.active c).length), (8, 0), (8, x.version.toNat), (8, x.parityGroup.toNat)]

/-- HUB_MAPOUT (R260). -/
def Hub.mapoutReg (x : Hub) (i : Nat) : Nat :=
  match x.mapout[i]? with
  | none => 0
  | some e => fields [(33, e.sector), (1, 0), (2, e.reason), (1, b2n e.slow), (2, e.state), (24, 0), (1, 1)]

/-- A hub register (R534). -/
def State.hubReg (s : State) (h off : Nat) : Option Nat :=
  let x := s.hub h
  if off = 0x00 then some (fields [(3, x.slowSize), (3, x.hbmStacks)])
  else if off = 0x08 then some x.tileMapReg
  else if off = 0x10 then some (s.sortStatus h)
  else if off = 0x18 then some x.plateReg
  else if off = 0x20 then some (fields [(1, b2n x.fetEnable), (7, 0), (8, x.fetPeriod.toNat)])
  else if off = 0x28 then some (s.fettleStatus h)
  else if off = 0x30 then some (s.updStatus h)
  else if off = 0x38 then some (s.redStatus h)
  else if off = 0x40 then some x.ckptStatus
  else if off = 0x48 then some (x.slot0.gen % 2 ^ 64)
  else if off = 0x50 then some (x.slot1.gen % 2 ^ 64)
  else if off = 0x58 then some x.cuff.reg
  else if off = 0x60 then some (s.portStatus h 0)
  else if off = 0x68 then some (s.portStatus h 1)
  else if 0x80 ≤ off && off < 0xF0 then some (s.chanStatus h ((off - 0x80) / 8))
  else if 0x100 ≤ off && off < 0x200 then drossReg x.dross off
  else if 0x200 ≤ off && off < 0x400 then some (x.mapoutReg ((off - 0x200) / 8))
  else none

/-! ### Tile registers -/

/-- TIL_POUR_STATUS (R115): the items that the paths hold; a filler pour runs until the LOAD it waits for. -/
def State.pourStatus (s : State) (t k : Nat) : Nat :=
  let a := (s.cluster t k).arr
  let issue := s.onPath t k 1
  let load := s.onPath t k 0
  let code := if a.filler then 8 else match issue, load with
    | some n, _ => n.item.code
    | none, some n => n.item.code
    | none, none => a.itemCode.toNat
  let waiting := match issue with | some n => s.pourWaits t k n | none => false
  let active := a.filler || (List.range 4).any fun p => (s.onPath t k p).isSome
  let item := match issue with | some n => n.inst.ord | none => a.itemNo.toNat
  fields [(13, item), (1, b2n waiting), (1, b2n active), (2, a.ramp.toNat), (4, code), (11, 0), (32, a.pourNo.toNat)]

/-- The item a region's MV list stands at, once its words are read (R269): its header, execution and the item. -/
def State.mvNext (s : State) (t r : Nat) : Option (Head × Nat × MvItem) :=
  let l := (s.ltile t).run (4 + r)
  match (s.mvList t r)[l.pos]? with
  | some (.item h it) =>
    if s.crown.openStep.isSome && !((s.ltile t).mv r).stopped && !l.stopped && s.entryRead t (4 + r) l.pos then some (h, l.count l.pos, it) else none
  | _ => none

/-- Whether the weights of a run have not all arrived (R119). -/
def State.weightsDue (s : State) (t r pos : Nat) (it : MvItem) : Bool :=
  match s.rowsInForce t r pos it with
  | none => false
  | some n => (((s.ltile t).mv r).takeWeights (lget {} (s.tileMould t).descs it.desc) it.desc (n * it.k)).isNone

/-- TIL_MV_STATUS (R131): an item runs from when its token is there; a run waits for that or for its weights. -/
def State.mvStatus (s : State) (t r : Nat) : Nat :=
  let v := (s.ltile t).mv r
  let pos := ((s.ltile t).run (4 + r)).pos
  match s.mvNext t r with
  | none => fields [(12, v.itemNo.toNat), (2, 0), (1, b2n v.setNo), (1, 0), (4, v.itemCode.toNat), (12, 0), (32, v.runNo.toNat)]
  | some (h, i, it) =>
    let run := it.code = 1 || it.code = 2
    let active := s.waitMet t h i
    let waiting := run && (!active || s.weightsDue t r pos it)
    fields [(12, if active then pos else v.itemNo.toNat), (1, b2n waiting), (1, b2n active), (1, if run && active then it.set else b2n v.setNo), (1, 0),
      (4, if active then it.code else v.itemCode.toNat), (12, 0), (32, if run && active then v.runs else v.runNo.toNat)]

/-- TIL_THR_TRAP (R169). -/
def TrapReg.reg (x : TrapReg) : Nat :=
  fields [(32, x.stepLo.toNat), (8, x.ctx.toNat), (14, x.pc.toNat), (1, 0), (1, b2n x.valid), (8, x.cause.toNat)]

/-- Requests that a memory instruction makes (R144), when it is one. -/
def TEnv.asks (e : TEnv) : Option Nat :=
  if e.w.opc = 0x90 || e.w.opc = 0x91 then some 1 else if 0x92 ≤ e.w.opc && e.w.opc ≤ 0x94 then some e.lanes.length else none

/-- Whether a context waits on memory, and on a token or a barrier (R170): a register of it awaits a result, or its next instruction's
requests exceed a limit; its next instruction is a WAIT that is not met, or a barrier holds it. -/
def State.ctxWaits (s : State) (t k c : Nat) : Bool × Bool :=
  let cl := s.cluster t k
  let x := cl.ctx c
  match s.fetch t k c with
  | none => (decide (x.pend ≠ []), x.barWait.isSome && !x.stopped)
  | some (e, _) =>
    let full := match e.asks with | some n => !e.room n | none => false
    (decide (x.pend ≠ []) || full,
      e.w.opc = 0xB0 && decide (s.token t (bits e.w.mod 23 16) < ((e.scalar e.w.s1).toNat + bits e.w.mod 15 0) % 2 ^ 32))

/-- TIL_THR_STATUS (R170). -/
def State.thrStatus (s : State) (t k : Nat) : Nat :=
  let c := s.cluster t k
  let live := (c.ctxs.filter fun e => e.2.running).map Prod.fst
  let w := live.map (s.ctxWaits t k)
  fields [(9, live.length), (9, (w.filter Prod.snd).length), (9, (w.filter Prod.fst).length), (5, 0), (10, c.outstanding), (22, c.launched - 1)]

/-- A tile register (R534). -/
def State.tileReg (s : State) (t off : Nat) : Option Nat :=
  let x := s.ltile t
  if off = 0x00 then some x.pourFlags.toNat
  else if off = 0x08 then some x.mvFlags.toNat
  else if off = 0x10 then some x.thrFlags.toNat
  else if off = 0x18 then some x.cuff.reg
  else if 0x20 ≤ off && off < 0x40 then some (s.pourStatus t ((off - 0x20) / 8))
  else if 0x40 ≤ off && off < 0x50 then some (s.mvStatus t ((off - 0x40) / 8))
  else if 0x60 ≤ off && off < 0x80 then some ((tget {} x.traps ((off - 0x60) / 8)).reg)
  else if 0x80 ≤ off && off < 0xA0 then some (s.thrStatus t ((off - 0x80) / 8))
  else if 0x100 ≤ off && off < 0x200 then drossReg x.dross off
  else none

/-! ### Reading -/

/-- What reading one register answers (R521). -/
inductive RegRead where
  | value (v : Nat)
  | asleep
  | bad
  deriving DecidableEq, Repr

/-- Whether hub and tile registers answer ASLEEP (R521): in mitten, and in a quenched device, which keeps what mitten keeps (R546). -/
def State.asleep (s : State) : Bool := s.power.mitten || s.power.quenched

/-- Read one register. -/
def State.readReg (s : State) (a : Nat) : RegRead :=
  let put := fun (v : Option Nat) (die : Bool) => match v with
    | none => RegRead.bad
    | some v => if die && s.asleep then .asleep else .value v
  match regAt a with
  | some (.crown off) => put (s.crownReg off) false
  | some (.hub h off) => put (s.hubReg h off) true
  | some (.tile t off) => put (s.tileReg t off) true
  | none => .bad

/-- Address of CRN_TIME_NOW (R534). -/
def timeNowAddr : Nat := crownBase + 0x40

/-- What a read of one register changes: CRN_TIME_NOW latches the fraction (R534), and a log entry counts as read (R472). -/
def State.readEffect (s : State) (a : Nat) : State :=
  match regAt a with
  | some (.crown off) =>
    if off = 0x40 then { s with time := { s.time with sub := BitVec.ofNat 16 s.time.counter } }
    else if 0x10000 ≤ off && off < 0x50000 then
      let i := (off - 0x10000) / 64
      if thas s.crown.log i then s.updCrown fun c => { c with log := tset c.log i { tget {} c.log i with read := true } } else s
    else s
  | _ => s

/-- Read registers in ascending order (R521): the values, or the first status that is not a value. -/
def State.readRegs (s : State) (a : Nat) : Nat → Except RegRead (List Nat) × State
  | 0 => (.ok [], s)
  | n + 1 =>
    match s.readReg a with
    | .value v =>
      match (s.readEffect a).readRegs (a + 8) n with
      | (.ok l, t) => (.ok (v :: l), t)
      | (.error e, _) => (.error e, s)
    | e => (.error e, s)

/-! ### Writing -/

/-- Clear a sticky bit where the written value holds 1. -/
def w1c (old : Bool) (v i : Nat) : Bool := old && !bit v i

/-- Clear bits of a flag register where the written value holds 1. -/
def w1cBits {n : Nat} (old : BitVec n) (v : Nat) : BitVec n := old &&& ~~~BitVec.ofNat n v

/-- Clear a dross class of every die, or every class (R474). -/
def State.clearDross (s : State) (cls : Option Nat) : State :=
  let f := fun (t : Tbl Nat) => match cls with | some c => terase t c | none => []
  ((s.mapHubs fun x => { x with dross := f x.dross }).mapTiles fun x => { x with dross := f x.dross }).updCrown fun c => { c with dross := f c.dross }

/-- Plates of a hub's populated slice (R235). -/
def Hub.plates (x : Hub) (slow : Bool) : Nat := if slow then 2 * slowCap x.slowSize / 4096 else if x.hbmStacks = 0 then 0 else hbmSlice / 4096

/-- A write of HUB_PLATE_CLEAR (R231, R235): the fields first, then GO, which starts the clear or sets REFUSED. -/
def State.writePlateClear (s : State) (h v : Nat) : State :=
  let s := s.updHub h fun x =>
    { x with pcTier := bit v 56, pcPlate := BitVec.ofNat 26 (bits v 55 30), pcCount := BitVec.ofNat 27 (bits v 26 0), pcRefused := w1c x.pcRefused v 61 }
  let x := s.hub h
  if !bit v 63 then s
  else if s.crown.job = .active || s.crown.job = .suspended || s.crown.rstate = .stalled || x.pcBusy ||
      decide (x.plates x.pcTier < x.pcPlate.toNat + x.pcCount.toNat) then s.updHub h fun x => { x with pcRefused := true }
  else (s.clearRange h x.pcTier x.pcPlate.toNat x.pcCount.toNat).1.updHub h fun x => { x with pcBusy := true }

/-- WINDOW as it is held (R472). -/
def heldWindow (v : Nat) : W16 := let w := v % 65536; if w = 0 || 3600 < w then 60 else BitVec.ofNat 16 w

/-- PERIOD as it is held (R258). -/
def heldPeriod (v : Nat) : Byte := let p := bits v 15 8; if p = 0 || 168 < p then 24 else BitVec.ofNat 8 p

/-- A write of CRN_DROSS_CLEAR (R474). -/
def State.writeDrossClear (s : State) (v : Nat) : State :=
  if bit v 31 then s.clearDross (if bit v 8 then none else some (v % 256)) else s

/-- A write of a crown register of the list (R521). -/
def State.writeCrown (s : State) (off v : Nat) : Option State :=
  if off = 0x10 then some { s with link := { s.link with downed := w1c s.link.downed v 9 } }
  else if off = 0x28 then some (s.updCrown fun c => { c with window := heldWindow v })
  else if off = 0x38 then some (s.updCrown fun c => { c with rewound := w1c c.rewound v 1, crcBad := w1c c.crcBad v 0 })
  else if off = 0x50 then
    some { s with time := { s.time with stepped := w1c s.time.stepped v 2, ppsLost := w1c s.time.ppsLost v 1, sourceLost := w1c s.time.sourceLost v 0 } }
  else if off = 0x60 then some (if bit v 63 then s.updCrown fun c => { c with overwritten := 0 } else s)
  else if off = 0x68 then some (s.writeDrossClear v)
  else none

/-- A write of a hub register of the list (R521). -/
def State.writeHub (s : State) (h off v : Nat) : Option State :=
  let hub := fun (f : Hub → Hub) => some (s.updHub h f)
  if off = 0x18 then some (s.writePlateClear h v)
  else if off = 0x20 then hub fun x => { x with fetPeriod := heldPeriod v, fetEnable := bit v 0 }
  else if off = 0x28 then hub fun x => { x with fetListFull := w1c x.fetListFull v 16 }
  else if off = 0x30 then hub fun x => { x with updNonfinite := w1c x.updNonfinite v 2, updDigestBad := w1c x.updDigestBad v 1 }
  else if off = 0x38 then hub fun x => { x with gauntBad := w1c x.gauntBad v 2, backupBad := w1c x.backupBad v 1, origin := w1c x.origin v 0 }
  else if off = 0x40 then hub fun x => { x with ckptBad := w1c x.ckptBad v 1 }
  else if off = 0x58 then hub fun x => { x with cuff := { x.cuff with throttled := w1c x.cuff.throttled v 0 } }
  else if off = 0x60 || off = 0x68 then
    let m := (off - 0x60) / 8
    some (s.updPort h m fun p => { p with failed := w1c p.failed v 3 })
  else if 0x80 ≤ off && off < 0xF0 then
    let c := (off - 0x80) / 8
    if hasChan h c then hub fun x => x.setChan c { x.chan c with fault := w1c (x.chan c).fault v 3 } else some s
  else none

/-- A write of a tile register of the list (R521). -/
def State.writeTile (s : State) (t off v : Nat) : Option State :=
  let til := fun (f : Tile → Tile) => some (s.updLtile t f)
  if off = 0x00 then til fun x => { x with pourFlags := w1cBits x.pourFlags v }
  else if off = 0x08 then til fun x => { x with mvFlags := w1cBits x.mvFlags v }
  else if off = 0x10 then til fun x => { x with thrFlags := w1cBits x.thrFlags v }
  else if off = 0x18 then til fun x => { x with cuff := { x.cuff with throttled := w1c x.cuff.throttled v 0 } }
  else if 0x60 ≤ off && off < 0x80 then
    let k := (off - 0x60) / 8
    til fun x => { x with traps := tset x.traps k { tget {} x.traps k with valid := w1c (tget {} x.traps k).valid v 55 } }
  else none

/-- Write one register (R521): none where the address is outside the list. -/
def State.writeReg (s : State) (a v : Nat) : Option State :=
  match regAt a with
  | some (.crown off) => s.writeCrown off v
  | some (.hub h off) => s.writeHub h off v
  | some (.tile t off) => s.writeTile t off v
  | none => none

/-- Whether an address lies in hub or tile registers. -/
def dieReg (a : Nat) : Bool := match regAt a with
  | some (.crown _) => false
  | some (.hub _ _) => true
  | some (.tile _ _) => true
  | none => false

end Sys2Proof.Machine
end

