-- ==== Sys2Proof/Machine/HostLink.lean ====
section
/-! DEFINITION. The host link (R507 to R518, R575): the link coming up and going down, tags and acknowledgements, and the commands of the
job, of registers and of sleep (R551 to R556). -/
namespace Sys2Proof.Machine

/-! ### Acknowledgement -/

/-- What a taken command answers: a status, and the fields of its ACK that are not common to all. -/
structure Reply where
  status : Byte := stOk
  handle : Nat := 0
  param0 : Option Nat := none
  payload : List Byte := []
  deriving DecidableEq, Repr

/-- An ACK of a frame (R513): PARAM0 holds the SEQ of the last event (R471) unless the command answers a value there. -/
def State.ackFrame (s : State) (f : Frame) (r : Reply) : DevFrame :=
  { type := ftAck, tag := f.tag, status := r.status, handle := BitVec.ofNat 32 r.handle
    param0 := match r.param0 with | some v => BitVec.ofNat 64 v | none => s.crown.seq
    payload := r.payload }

/-- Send an ACK (R508, R511). -/
def State.sendAck (s : State) (a : DevFrame) : State := { s with link := ({ s.link with acks := s.link.acks ++ [a] } : Link).put a }

/-- Whether FCRC holds (R510): CRC-32C of the payload, 0 for none. -/
def frameCrcOk (f : Frame) : Bool := f.fcrc == (if f.payload = [] then 0 else crc32c f.payload)

/-- Whether the header's common fields hold (R510, R512): STATUS is 0, FLAGS has no bit but those given, LEN is at most 65,536. -/
def frameHeaderOk (f : Frame) (flags : Byte) : Bool :=
  f.status == 0 && f.flags &&& ~~~flags == 0 && decide (f.payload.length ≤ 65536)

/-- Take a command under the tag rules (R511). A duplicate gets its ACK again; SEQUENCE, BUSY and CRC do not execute. -/
def State.take (s : State) (f : Frame) (flags : Byte) (run : State → Reply × State) : State :=
  if !s.link.up || !s.crownOn then s
  else match s.link.recent.find? fun r => r.1 == f.tag with
    | some r => s.sendAck r.2
    | none =>
      if f.tag ≠ s.link.expected then s.sendAck (s.ackFrame f { status := stSequence })
      else if 8 ≤ s.link.outstanding then s.sendAck (s.ackFrame f { status := stBusy })
      else if !frameCrcOk f then s.sendAck (s.ackFrame f { status := stCrc })
      else
        let s := { s with link := { s.link with expected := s.link.expected + 1 } }
        let r := if frameHeaderOk f flags then run s else ({ status := stBadParam }, s)
        let a := r.2.ackFrame f r.1
        let l := r.2.link.recent ++ [(f.tag, a)]
        ({ r.2 with link := { r.2.link with recent := l.drop (l.length - 8) } } : State).sendAck a

/-- Answer a status and change nothing. -/
def State.answer (s : State) (st : Byte) : Reply × State := ({ status := st }, s)

/-- Which commands go on in which job state (R502, R518): in service mode only registers, ATTEST and the service operations are served,
and an ended job leaves a few. -/
def State.gate (s : State) (ended service : Bool) (run : State → Reply × State) (t : State) : Reply × State :=
  if s.startup.service && !service then t.answer stState
  else if s.crown.job = .ended && !ended then t.answer stState
  else run t

/-- A command that the job takes: neither in service mode nor in ENDED. -/
def State.jobCommand (s : State) (f : Frame) (run : State → Reply × State) : State := s.take f 0 (s.gate false false run)

/-- Accept a long operation under the next handle (R516): the seventeenth in progress is BUSY. -/
def State.openOp (s : State) (op : LongOp) : Reply × State :=
  if 16 ≤ s.crown.ops.length then s.answer stBusy
  else
    let h := s.crown.nextHandle
    ({ handle := h }, s.updCrown fun c => { c with ops := tset c.ops h op, nextHandle := h + 1 })

/-! ### The link -/

/-- YHL_LINK_UP (R508, R509, R513, R575): the lower version, IDENT, HELLO, then the queue, oldest first. A flight above 5 us keeps it down. -/
def execYhlLinkUp (version : Byte) (flightNs : Nat) (s : State) : Out :=
  .next (if !s.crownOn || 2 ∉ s.startup.done || s.link.up || 5000 < flightNs then s
    else
      let v : Byte := if version.toNat < 1 then version else 1
      let s := { s with link := ({ s.link with up := true, version := v, flight := BitVec.ofNat 16 flightNs, lanes := 0xF } : Link).identify }
      let hello : DevFrame := { type := ftHello, param0 := BitVec.ofNat 64 s.versions, param1 := BitVec.ofNat 64 s.jobStatus }
      let q := s.link.queue
      (({ s with link := { s.link with queue := [] } } : State).sendFrame hello) |> fun s => q.foldl State.sendFrame s)

/-- YHL_LINK_DOWN (R509, R535, R575): no fault. Frames sent and not acknowledged at the link level go back to the head of the queue, and
their log entries count as unread again. -/
def execYhlLinkDown (unacked : Nat) (s : State) : Out :=
  .next (if !s.link.up then s
    else
      let l := s.link
      let n := l.sent.length - unacked
      let back := l.sent.drop n
      let s := { s with link := { l with up := false, downed := true, lanes := 0, sent := l.sent.take n, queue := back ++ l.queue } }
      back.foldl (fun s f => s.setRead f false) s)

/-! ### The job -/

/-- START (R455, R494, R497, R515, R517): leaves STALLED with a restart; elsewhere it releases a READY that has not been sent, and at the
coordinator it lets the start go on. -/
def execStart (f : Frame) (s : State) : Out :=
  .next (s.jobCommand f fun s =>
    let c := s.crown
    let own := thas c.ops 1
    let withJob := fun (s : State) => s.updCrown fun c => { c with ops := tset c.ops 1 .job }
    let ok : Reply := { handle := 1 }
    if s.startup.refusal ≠ 0 || 2 ∉ s.startup.done then s.answer stState
    else if c.rstate = .stalled then
      (ok, (s.updCrown fun c => { c with attempt := 0 }).beginAbort c.voted.isSome)
    else if c.rstate ≠ .idle || s.startup.started then s.answer (if s.isCoord then stState else stIgnored)
    else if s.startup.readySent && !s.isCoord then s.answer stIgnored
    else if !s.startup.readySent && (s.header.initSet = 0xFFFF && !s.startup.imported) then s.answer stState
    else if !own && 16 ≤ c.ops.length then s.answer stBusy
    else
      let s := withJob { s with startup := { s.startup with hostStart := true } }
      (ok, if s.startup.readySent then s.tryStart else s))

/-- SUSPEND (R305, R517, R518, R551). -/
def execSuspend (f : Frame) (s : State) : Out :=
  .next (s.take f 0 (s.gate false false fun s =>
    let c := s.crown
    let after := f.param0.toNat
    if f.handle = 1 then
      (if c.job ≠ .active || c.rstate = .stalled then s.answer stState
       else if after ≤ c.gen then s.answer stPassed
       else ({}, s.updCrown fun c => { c with suspend := some (after, f.param1.getLsbD 0) }))
    else match tget .job c.ops f.handle.toNat with
      | .exporting src left _ => ({}, s.updCrown fun c => { c with ops := tset c.ops f.handle.toNat (.exporting src left true) })
      | _ => s.answer stState))

/-- Wake from mitten (R556): dies are powered; ports come up next. -/
def State.wake (s : State) : State := ({ s with power := { s.power with mitten := false } } : State).wakeDies

/-- RESUME (R303, R518, R549, R556): a suspended job goes on, woken from mitten if asleep; one that was about to sleep stays awake. -/
def execResume (f : Frame) (s : State) : Out :=
  .next (s.take f 0 (s.gate false false fun s =>
    let c := s.crown
    if f.handle = 1 then
      (if c.job ≠ .suspended || c.rstate = .stalled then s.answer stState
       else
         let s := if s.power.entering then
             let t := { s with power := { s.power with entering := false } }
             match t.opHandle fun o => o == .mitten with
             | some h => t.complete h stFailed 0 0
             | none => t
           else if s.power.mitten then s.wake else s
         ({}, (s.updCrown fun c => { c with job := .active, deadline := c.rstate == .running }).startSoft))
    else match tget .job c.ops f.handle.toNat with
      | .exporting src left _ => ({}, s.updCrown fun c => { c with ops := tset c.ops f.handle.toNat (.exporting src left false) })
      | _ => s.answer stState))

/-- Cancel the job at the coordinator (R368, R518): pending in ACTIVE and until OPEN of a restart, at once in SUSPENDED and STALLED. -/
def State.cancelJobNow (s : State) : Reply × State :=
  let c := s.crown
  if c.job ≠ .active && c.job ≠ .suspended then s.answer stState
  else if !s.isCoord then s.answer stIgnored
  else if c.rstate = .stalled || (c.rstate = .running && c.job = .suspended) then
    let g := c.gen + 1
    ({}, (s.recordDecision g true 4).cancelJob g)
  else ({}, s.updCrown fun c => { c with cancelPending := true })

/-- End an import without its effect (R519): every tag becomes EMPTY. -/
def State.dropImport (s : State) (h : Nat) (st : Byte) : State :=
  (s.mapHubs fun x => { x with tags := [], covered := [] }).complete h st 0 0

/-- End a replay on the host's word (R465, R518): its feed is dropped, and one that was sent again is asked for anew. -/
def State.cancelReplay (s : State) (h : Nat) (st : Byte) : State :=
  let sent := !s.mouldSet.step.replayOnRestart
  let s := if s.tracing then (s.mapHubs fun x => x.aborted false).mapTiles Tile.aborted else s
  let s := s.updCrown fun c =>
    { c with openStep := if s.tracing then none else c.openStep, replayFeed := false, keptFeed := if sent then none else c.keptFeed }
  let s := s.complete h st 0 0
  if sent then s.sendRewind s.nextFeed else s

/-- CANCEL (R368, R518, R519). -/
def execCancel (f : Frame) (s : State) : Out :=
  .next (s.take f 0 (s.gate false false fun s =>
    let h := f.handle.toNat
    if h = 1 then s.cancelJobNow
    else if !thas s.crown.ops h then s.answer stState
    else match tget .job s.crown.ops h with
      | .switch _ _ =>
        if s.crown.reshard.isSome then s.answer stState
        else ({}, (s.updCrown fun c => { c with switch := none }).complete h stCancelled 0 0)
      | .exporting _ _ _ => ({}, s.complete h stCancelled 0 0)
      | .importing _ _ _ _ => ({}, s.dropImport h stCancelled)
      | .replay _ _ => ({}, s.cancelReplay h stCancelled)
      | .job => s.answer stState
      | .mitten => s.answer stState
      | .wake => s.answer stState))

/-- The mould load of a switch (R305, R306, R487), from the copies in the mould areas: whether the new set passes it. -/
def State.switchOk (s : State) (m : Nat) : Bool :=
  match s.loaded.sets.find? fun x => x.mapping == m with
  | none => false
  | some x => s.featuresMet && s.mouldOk s.loaded s.crown.rankNow.toNat x

/-- SWITCH_MAPPING (R305, R372, R515): the new set is loaded and checked while the step runs, and takes effect at the boundary of step
AFTER; one at a time. A set that is rejected fails the command, and the current one continues. -/
def execSwitchMapping (f : Frame) (s : State) : Out :=
  .next (s.jobCommand f fun s =>
    let c := s.crown
    let after := f.param0.toNat
    let m := f.param1.toNat % 65536
    if (c.job ≠ .active && c.job ≠ .suspended) || c.switch.isSome || c.rstate = .stalled then s.answer stState
    else if after ≤ c.gen then s.answer stPassed
    else
      let r := s.openOp (.switch after m)
      if r.1.status ≠ stOk then r
      else if !s.switchOk m then (r.1, r.2.complete r.1.handle stFailed 0 0)
      else (r.1, r.2.updCrown fun c => { c with switch := some (r.1.handle, after, m) }))

/-! ### Registers -/

/-- Bytes of register values (R521). -/
def regBytes (l : List Nat) : List Byte := l.flatMap fun v => leBytes 8 v

/-- The effect of a READ_REG (R521). -/
def State.doRead (s : State) (f : Frame) : Reply × State :=
  let n := f.param1.toNat
  if n = 0 || 512 < n then s.answer stBadParam
  else match s.readRegs f.param0.toNat n with
    | (.ok l, t) => ({ payload := regBytes l }, t)
    | (.error .asleep, _) => s.answer stAsleep
    | (.error _, _) => s.answer stBadAddress

/-- READ_REG (R471, R521). -/
def execReadReg (f : Frame) (s : State) : Out := .next (s.take f 0 fun t => t.doRead f)

/-- TIME_NOW_READ (R534): a READ_REG whose range holds CRN_TIME_NOW; any other frame is no such read. -/
def execTimeNowRead (f : Frame) (s : State) : Out :=
  let a := f.param0.toNat
  .next (if a % 8 = 0 && decide (a ≤ timeNowAddr ∧ timeNowAddr < a + 8 * f.param1.toNat) then s.take f 0 (fun t => t.doRead f) else s)

/-- The effect of a WRITE_REG (R521). -/
def State.doWrite (s : State) (f : Frame) : Reply × State :=
  let a := f.param0.toNat
  match s.writeReg a f.param1.toNat with
  | none => s.answer stDenied
  | some t => if dieReg a && s.asleep then s.answer stAsleep else ({}, t)

/-- WRITE_REG (R521). -/
def execWriteReg (f : Frame) (s : State) : Out := .next (s.take f 0 fun t => t.doWrite f)

/-- Whether a frame writes a register with a bit set. -/
def writesBit (f : Frame) (addr b : Nat) : Bool := f.param0.toNat == addr && bit f.param1.toNat b

/-- HUB_PLATE_CLEAR_GO (R235): a write of GO to a hub's HUB_PLATE_CLEAR. -/
def execHubPlateClearGo (f : Frame) (s : State) : Out :=
  .next (if (List.range 8).any fun h => writesBit f (hubBase + 0x1000000 * h + 0x18) 63 then s.take f 0 (fun t => t.doWrite f) else s)

/-- HUB_PLATE_CLEAR_DONE (R235). -/
def execHubPlateClearDone (hb : Fin 8) (s : State) : Out := .next (s.updHub hb.val fun x => { x with pcBusy := false })

/-- DROSS_CLEAR_CLASS (R474): a write of GO to CRN_DROSS_CLEAR without ALL. -/
def execDrossClearClass (f : Frame) (s : State) : Out :=
  .next (if writesBit f (crownBase + 0x68) 31 && !bit f.param1.toNat 8 then s.take f 0 (fun t => t.doWrite f) else s)

/-- DROSS_CLEAR_ALL (R474): a write of GO and ALL. -/
def execDrossClearAll (f : Frame) (s : State) : Out :=
  .next (if writesBit f (crownBase + 0x68) 31 && bit f.param1.toNat 8 then s.take f 0 (fun t => t.doWrite f) else s)

/-- LOG_CLEAR (R472): a write of CLEAR to CRN_LOG_STATUS. -/
def execLogClear (f : Frame) (s : State) : Out :=
  .next (if writesBit f (crownBase + 0x60) 63 then s.take f 0 (fun t => t.doWrite f) else s)

/-! ### Sleep -/

/-- MITTEN (R551, R552): accepted while the job is NONE, SUSPENDED or ENDED. -/
def execMitten (f : Frame) (s : State) : Out :=
  .next (s.take f 0 (s.gate true false fun s =>
    if s.crown.job = .active || s.crown.rstate = .stalled || s.power.mitten || s.power.entering || s.power.waking || s.power.quenched ||
        s.power.quenching then s.answer stState
    else
      let r := s.openOp .mitten
      if r.1.status ≠ stOk then r else (r.1, { r.2 with power := { r.2.power with entering := true } })))

/-- Whether orders 1 to 4 of mitten entry are done (R552, R388): no checkpoint stream runs, all that the ports sent is acknowledged, and
every hub has completed its accepted requests. -/
def State.mittenReady (s : State) : Bool :=
  (s.hubs.all fun e => e.2.ckpt == [] && e.2.slots == [] &&
    e.2.ports.all fun p => p.2.tx == [] && (p.2.rx.all fun r => r.complete) && p.2.prio.held == [] && p.2.data.held == []) &&
    (s.crown.rstate == .idle || s.crown.rstate == .running)

/-- A port at order 2 of mitten entry (R388, R552): SLEEP on every lane, then the lanes stop. -/
def State.sleepPort (s : State) (h m : Nat) : State :=
  s.updPort h m fun p =>
    if !p.up then p
    else
      let p := (List.range 8).foldl (fun (p : Port) l => p.control (.sleep s.crown.rankNow (BitVec.ofNat 4 (2 * h + m)) s.crown.epoch) l) p
      { ({ p with up := false, farAsleep := true } : Port).retrain with farAsleep := true }

/-- MITTEN_COMPLETE (R552, R554). Messages for a device that sleeps wait at its ports (R553). -/
def execMittenComplete (s : State) : Out :=
  .next (if !s.power.entering || !s.mittenReady then s
    else
      let s := (List.range 16).foldl (fun s q => s.sleepPort (q / 2) (q % 2)) s
      let ports := fun (h : Nat) => (s.hub h).ports
      let s := s.dropPower.eachHub fun h x => { x with ports := ports h }
      let s := { s with power := { s.power with entering := false, mitten := true } }
      match s.opHandle fun o => o == .mitten with
      | some h => s.complete h stOk 0 0
      | none => s)

/-- WAKE (R556). -/
def execWake (f : Frame) (s : State) : Out :=
  .next (s.take f 0 (s.gate true false fun s =>
    if !s.power.mitten then s.answer stState
    else
      let r := s.openOp .wake
      if r.1.status ≠ stOk then r else (r.1, r.2.wake)))

/-- WAKE_COMPLETE (R556): every port is up, and order 2 of the restart sequence has run. -/
def execWakeComplete (s : State) : Out :=
  .next (if !s.power.waking || !s.negotiated || !s.wiredPorts.all (fun q => (s.port (q / 2) (q % 2)).up) then s
    else
      let s := (s.repairAll.retrain []).mapTilesOver.loadMoulds
      let s := { s with power := { s.power with waking := false } }
      match s.opHandle fun o => o == .wake with
      | some h => s.complete h stOk 0 0
      | none => s)

/-- Codes of commands the host may send (R515). -/
def opcodes : List Nat := (List.range 18).filter (fun c => c ≠ 0 && c ≠ 9) ++ [0x20, 0x21, 0x22, 0x23, 0x24, 0x25]

/-- BAD_OPCODE (R511, R512): a code that no command has, under the rules of tags. -/
def execBadOpcode (opcode : Byte) (f : Frame) (s : State) : Out :=
  .next (if opcode.toNat ∈ opcodes then s else s.take f 0xFF fun t => t.answer stBadOpcode)

end Sys2Proof.Machine
end

