-- ==== Sys2Proof/Machine/Images.lean ====
section
/-! DEFINITION. Checkpoint images (R493, R519), the feed (R522 to R525) and the host's replay (R465, R468). -/
namespace Sys2Proof.Machine

/-! ### Exports -/

/-- Chunk and frame sizes of an image (R510, R519). -/
def chunkMax : Nat := 1048576
def frameMax : Nat := 65536

/-- Cut a range into chunks (R519): hub, address and bytes (fuel: chunks). -/
def imageChunks (h : Nat) : Nat → Nat → Nat → List (Nat × Nat × Nat)
  | 0, _, _ => []
  | k + 1, a, n => if n = 0 then [] else (h, a, min n chunkMax) :: imageChunks h k (a + chunkMax) (n - chunkMax)

/-- Generation of the newest complete partner slot (R515, R456). -/
def State.newestCopy (s : State) : Option Nat :=
  match s.slotGen 0, s.slotGen 1 with
  | some a, some b => some (max a b)
  | some a, none => some a
  | none, b => b

/-- What an export of a source sends (R519): H0 to H7, ranges in table order, each ascending. -/
def State.exportPlan (s : State) (source : Nat) : List (Nat × Nat × Nat) :=
  (List.range 8).flatMap fun h =>
    let p := lget {} s.loaded.placement.hubs h
    let ranges := match source with
      | 0 => s.taggedRanges h
      | 1 => if s.newestCopy.isSome then [(0, p.partner.2)] else []
      | _ => [(0, p.trace.2)]
    ranges.flatMap fun r => imageChunks h (r.2 / chunkMax + 1) r.1 r.2

/-- Where a chunk's bytes lie: ADDR is a bank 0 address, or an offset in the slot or the trace area (R519). -/
def State.chunkAddr (s : State) (source h a : Nat) : Nat :=
  let p := lget {} s.loaded.placement.hubs h
  match source with
  | 0 => a + s.crown.gen % 2 * s.bankSpan
  | 1 => p.partner.1 + (if (s.hub h).slot1.state == 2 && some (s.hub h).slot1.gen == s.newestCopy then p.partner.2 else 0) + a
  | _ => p.trace.1 + a

/-- The header of a chunk (R519). -/
def chunkHeader (h a : Nat) (data : List Byte) : List Byte :=
  leBytes 8 (h * 2 ^ 61 + a % 2 ^ 42) ++ leBytes 8 ((crc32c data).toNat * 2 ^ 32 + data.length)

/-- EXPORT_CKPT (R518, R519): SUSPENDED, STALLED and ENDED only. -/
def execExportCkpt (f : Frame) (s : State) : Out :=
  .next (s.take f 0 (s.gate true false fun s =>
    let src := f.param0.toNat
    if 2 < src then s.answer stBadParam
    else if s.crown.job ≠ .suspended && s.crown.job ≠ .ended && s.crown.rstate ≠ .stalled then s.answer stState
    else
      let plan := s.exportPlan src
      let r := s.openOp (.exporting src plan false)
      if r.1.status ≠ stOk || plan ≠ [] then r
      else (r.1, r.2.complete r.1.handle (if src = 1 then stFailed else stOk) (if src = 0 then BitVec.ofNat 64 s.crown.gen else 0) 0)))

/-- EXPORT_CHUNK (R513, R519): the next chunk of an export that is not paused, in frames of at most 65,536 bytes; the last one ends the
export. Asleep, nothing is sent. -/
def execExportChunk (handle : W32) (s : State) : Out :=
  let h := handle.toNat
  .next (match tget .job s.crown.ops h with
    | .exporting src ((hub, a, n) :: rest) false =>
      if !s.diesOn then s
      else match s.agentRead hub 0x3 (s.chunkAddr src hub a) n with
        | (none, s) => s.complete h stFailed 0 0
        | (some b, s) =>
          let all := chunkHeader hub a b ++ b
          let k := all.length / frameMax + 1
          let cuts := (List.range k).map (fun i => (all.drop (frameMax * i)).take frameMax) |>.filter (· ≠ [])
          let s := cuts.zipIdx.foldl (fun s c => s.sendFrame
            { type := ftCkpt, handle := handle, flags := if rest = [] && c.2 + 1 = cuts.length then 1 else 0, payload := c.1 }) s
          let s := s.updCrown fun c => { c with ops := tset c.ops h (.exporting src rest false) }
          if rest = [] then s.complete h stOk (if src = 0 then BitVec.ofNat 64 s.crown.gen else 0) 0 else s
    | _ => s)

/-! ### Imports -/

/-- IMPORT_CKPT (R493, R519): after order 11 and before the device's READY, or in STALLED; one at a time. -/
def execImportCkpt (f : Frame) (s : State) : Out :=
  .next (s.jobCommand f fun s =>
    let early := decide (11 ∈ s.startup.done) && !s.startup.readySent && s.startup.refusal == 0
    if !(early || s.crown.rstate = .stalled) || s.importing || s.asleep then s.answer stState
    else s.openOp (.importing f.param0.toNat [] [] false))

/-- An import in progress: its generation, bytes held, ranges written, whether a byte came twice, and the status of its last chunk. -/
structure Import where
  gen : Nat
  held : List Byte
  written : List (Nat × Nat × Nat)
  twice : Bool
  status : Byte := stOk
  deriving DecidableEq, Repr

/-- Take one whole chunk (R519): within one tagged range and with its CRC, or it is not written. -/
def State.importChunk (s : State) (i : Import) (hub a : Nat) (crc : Nat) (data : List Byte) : Import × State :=
  if !((s.taggedRanges hub).any fun r => decide (r.1 ≤ a ∧ a + data.length ≤ r.1 + r.2)) then ({ i with status := stBadParam }, s)
  else if (crc32c data).toNat ≠ crc then ({ i with status := stCrc }, s)
  else
    let again := i.written.any fun w => w.1 == hub && decide (w.2.1 < a + data.length ∧ a < w.2.2)
    ({ i with written := i.written ++ [(hub, a, a + data.length)], twice := i.twice || again },
      s.agentWrite hub (a + i.gen % 2 * s.bankSpan) data)

/-- Take every whole chunk of the bytes held (fuel: chunks). A chunk header with a bad BYTES drops what is held (DESIGN CHOICE: nothing
tells where the next header stands). -/
def State.importChunks : Nat → State → Import → Import × State
  | 0, s, i => (i, s)
  | k + 1, s, i =>
    let w0 := leNat (i.held.take 8)
    let w1 := leNat ((i.held.drop 8).take 8)
    let n := w1 % 2 ^ 32
    if i.held.length < 16 then (i, s)
    else if n % 32 ≠ 0 || chunkMax < n then ({ i with held := [], status := stBadParam }, s)
    else if i.held.length < 16 + n then (i, s)
    else
      let r := s.importChunk { i with held := i.held.drop (16 + n) } (bits w0 63 61) (bits w0 41 0) (w1 / 2 ^ 32) ((i.held.drop 16).take n)
      State.importChunks k r.2 r.1

/-- Whether an import has brought every checkpoint range, no byte twice (R519). -/
def State.importWhole (s : State) (i : Import) : Bool :=
  !i.twice && (List.range 8).all fun h =>
    let got := (i.written.filter fun w => w.1 == h).foldl (fun l w => addRange l w.2) []
    (s.ckptRanges h).all fun r => coversRange got r.1 (r.1 + r.2.1)

/-- The tags of an import that has completed (R519): FINAL(G) where checkpoint ranges cover a tagged range. -/
def State.importTags (s : State) (g : Nat) : State :=
  s.eachHub fun h x =>
    let cov := (s.ckptRanges h).foldl (fun l r => addRange l (r.1, r.1 + r.2.1)) []
    let full := (s.taggedRanges h).zipIdx.filter fun r => coversRange cov r.1.1 (r.1.1 + r.1.2)
    { x with tags := full.map fun r => (2 * r.2 + g % 2, Tag.final g), covered := [], badSeen := [], relabel := false }

/-- The import's end (R493, R519). -/
def State.endImport (s : State) (h : Nat) (i : Import) : State :=
  if s.importWhole i then
    let s := (s.importTags i.gen).updCrown fun c =>
      { c with gen := i.gen, importDue := true, held := none, voted := none, commitHeld := false, relabel := false, priorIntact := false
               reshard := none, reshardIn := [], phaseDone := [], phaseHeld := false }
    let s := match s.crown.switch with
      | some (k, after, _) => if after ≤ i.gen then (s.updCrown fun c => { c with switch := none }).complete k stFailed 0 0 else s
      | none => s
    ({ s with startup := { s.startup with imported := true } } : State).complete h stOk 0 0
  else s.dropImport h stFailed

/-- CKPT_DATA (R519). -/
def execCkptData (f : Frame) (s : State) : Out :=
  .next (s.take f 1 (s.gate false false fun s =>
    let h := f.handle.toNat
    match tget .job s.crown.ops h with
    | .importing g held written twice =>
      let all := held ++ f.payload
      let r := State.importChunks (all.length / 16 + 1) s { gen := g, held := all, written := written, twice := twice }
      let i := r.1
      let s := r.2.updCrown fun c => { c with ops := tset c.ops h (.importing g i.held i.written i.twice) }
      ({ status := i.status }, if f.flags.getLsbD 0 then s.endImport h i else s)
    | _ => s.answer stBadParam))

/-! ### Manifests -/

/-- The manifest that a payload spells for a step (R522). -/
def parseManifest (g : Nat) (b : List Byte) : Option Manifest :=
  let w := fun (i : Nat) => leNat ((b.drop (8 * i)).take 8)
  let mb := bits (w 1) 28 16
  let n := bits (w 1) 47 32
  if b.length ≠ 8 * (18 + mb + 2 * n) || w 0 ≠ g then none
  else some
    { cls := bits (w 1) 3 0, params := (List.range 16).map fun i => BitVec.ofNat 64 (w (2 + i)), mbs := (List.range mb).map fun i => bits (w (18 + i)) 31 0
      segs := (List.range n).map fun i =>
        let o := 18 + mb + 2 * i
        (bits (w o) 41 0, BitVec.ofNat 32 (bits (w (o + 1)) 63 32), bits (w (o + 1)) 31 0)
      raw := b }

/-- A feed whose manifest has come: a segment without bytes is complete where its CRC is that of no bytes. -/
def newFeed (m : Manifest) : Feed :=
  { manifest := some m, complete := (m.segs.zipIdx.filter fun x => x.1.2.2 == 0 && x.1.2.1 == crc32c []).map fun x => (x.2, true) }

/-! ### Replay -/

/-- The handle and TEST_RAMP of the host's replay (R465). -/
def State.replayOp (s : State) : Option (Nat × Bool) :=
  s.crown.ops.findSome? fun o => match o.2 with | .replay _ t => some (o.1, t) | _ => none

/-- Begin the replay once its feed is whole (R465): a digest that differs from the step record's ends it FAILED. -/
def State.tryReplay (s : State) : State :=
  match s.replayOp, s.crown.openStep, s.crown.keptFeed with
  | some (h, ramp), none, some (_, f) => match f.manifest with
    | none => s
    | some m =>
      if !f.whole then s
      else
        let d := s.feedDigest m
        if d ≠ s.lastWord 3 then s.cancelReplay h stFailed
        else (s.updCrown fun c => { c with batchDigest := d }).openReplay m ramp
  | _, _, _ => s

/-- REPLAY_STEP (R465): SUSPENDED at a commit boundary or STALLED, with PRIOR_INTACT. -/
def execReplayStep (f : Frame) (s : State) : Out :=
  .next (s.jobCommand f fun s =>
    let c := s.crown
    let boundary := c.job == .suspended && c.rstate == .running && c.openStep.isNone && c.reshard.isNone && !c.relabel
    if 1 < f.param1.toNat then s.answer stBadParam
    else if !(boundary || c.rstate == .stalled) || !c.priorIntact || s.replayOp.isSome || s.importing || s.asleep || s.power.entering then
      s.answer stState
    else if f.param0.toNat ≠ c.gen then s.answer stBadParam
    else
      let r := s.openOp (.replay c.gen (f.param1.getLsbD 0))
      if r.1.status ≠ stOk then r
      else match c.keptFeed with
        | some (_, k) => if k.whole then (r.1, r.2.tryReplay)
          else (r.1, r.2.updCrown fun c => { c with keptFeed := some (c.gen, {}), feeds := terase c.feeds (c.gen + 2) })
        | none => (r.1, r.2.updCrown fun c => { c with keptFeed := some (c.gen, {}), feeds := terase c.feeds (c.gen + 2) }))

/-! ### Feed -/

/-- Whether a replay awaits the feed of step C (R465, R523). -/
def State.awaitsFeed (s : State) : Bool := s.replayOp.isSome && s.crown.openStep.isNone

/-- The status that refuses feed for a step, if any (R468, R523): STALE at or below C, BUSY above what is accepted. Feed for C + 2 would
land in the feed area that a replay of C uses. -/
def State.feedStatusOf (s : State) (g : Nat) : Option Byte :=
  let c := s.crown.gen
  if decide (11 ∉ s.startup.done) || s.asleep then some stState
  else if g = c && s.awaitsFeed then none
  else if g ≤ c then some stStale
  else if c + 2 < g || (g = c + 2 && (s.mouldSet.step.replayOnRestart || s.replayOp.isSome)) then some stBusy
  else none

/-- The feed of a step, that of C being the replay's. -/
def State.feedOf (s : State) (g : Nat) : Feed := if g = s.crown.gen then ((s.crown.keptFeed.map Prod.snd).getD {}) else s.feed g

/-- Replace the feed of a step. -/
def State.setFeed (s : State) (g : Nat) (f : Feed) : State :=
  s.updCrown fun c => if g = c.gen then { c with keptFeed := some (g, f) } else { c with feeds := tset c.feeds g f }

/-- SEGMENT and OFFSET of a FEED frame (R522). -/
def feedSegOf (f : Frame) : Nat × Nat := (bits f.param1.toNat 63 48, bits f.param1.toNat 47 0)

/-- FEED_MANIFEST (R522, R523): a FEED frame of SEGMENT 0xFFFF. The same manifest again keeps what has come of its segments. -/
def execFeedManifest (f : Frame) (s : State) : Out :=
  let p := feedSegOf f
  .next (if p.1 ≠ 0xFFFF then s
    else s.jobCommand f fun s =>
      let g := f.param0.toNat
      match s.feedStatusOf g with
      | some st => s.answer st
      | none => match parseManifest g f.payload with
        | none => s.answer stBadParam
        | some m =>
          if p.2 ≠ 0 then s.answer stBadParam
          else if (s.feedOf g).manifest = some m then ({}, s)
          else ({}, (s.setFeed g (newFeed m)).tryReplay))

/-- A segment's bytes arrive (R523): they are written at ADDR + OFFSET, and the last of them has the segment's CRC checked. A segment that
breaks R524 is written nowhere: its manifest fails. -/
def State.takeSegment (s : State) (g seg off : Nat) (m : Manifest) (b : List Byte) : Reply × State :=
  let x := lget (0, 0, 0) m.segs seg
  let bad := s.segmentBad m seg
  let fd := s.feedOf g
  let was := tget false fd.complete seg
  let got := addRange (tget [] fd.got seg) (off, off + b.length)
  let s := if bad || b = [] then s else s.agentWrite (x.1 / hbmSlice) (x.1 + off) b
  if was || !coversRange got 0 x.2.2 then ({}, s.setFeed g { fd with got := tset fd.got seg got })
  else if bad || crc32c (readBytes s.mem x.1 x.2.2) == x.2.1 then
    ({}, (s.setFeed g { fd with got := tset fd.got seg got, complete := tset fd.complete seg true }).tryReplay)
  else ({ status := stCrc }, (s.setFeed g { fd with got := terase fd.got seg }).updCrown fun c => { c with crcBad := true })

/-- FEED_SEGMENT (R522, R523): a FEED frame of any other SEGMENT. -/
def execFeedSegment (f : Frame) (s : State) : Out :=
  let p := feedSegOf f
  .next (if p.1 = 0xFFFF then s
    else s.jobCommand f fun s =>
      let g := f.param0.toNat
      match s.feedStatusOf g with
      | some st => s.answer st
      | none => match (s.feedOf g).manifest with
        | none => s.answer stState
        | some m =>
          if m.segs.length ≤ p.1 || (lget (0, 0, 0) m.segs p.1).2.2 < p.2 + f.payload.length then s.answer stBadParam
          else s.takeSegment g p.1 p.2 m f.payload)

end Sys2Proof.Machine
end

