-- ==== Sys2Proof/Machine/Messages.lean ====
section
/-! DEFINITION. Priority messages that arrive (R389, R392, R398, R399): each is taken in sequence, and after it those of flits that came
early and were waiting for it. -/
namespace Sys2Proof.Machine

/-- What a message does to the device it is for (R331, R367 to R370, R375, R413, R447, R451). -/
def State.takePrio (s : State) (m : PrioHead) (b : PrioBody) (hub : Fin 8) : State :=
  match b with
  | .vote b => s.takeVote m.src.toNat m.step.toNat b
  | .outcome b => s.onOutcome m b
  | .notice _ => s.onNotice
  | .ready b => s.onReady m b
  | .subst b => s.onSubst m b
  | .go b => s.onGo m b
  | .done _ => s.onDone m
  | .openJob => s.onOpen m
  | .stall a => s.onStall m a
  | .digest b => s.onDigest m hub.val b
  | .phase b => s.onPhase b.round.toNat b.place
  | .phaseDone b => s.countPhase m.src.toNat b
  | .timeSync _ => s.onTimeSync m
  | .timeReply t2 t3 => s.onTimeReply m t2 t3

/-- One message at its port, taken or not. -/
def State.prioOne (s : State) (m : PrioHead) (b : PrioBody) (hub : Fin 8 := 0) : State :=
  let r := s.prioIn m b hub
  if r.2 then r.1.takePrio m b hub else r.1

/-- A message arrives at a port that is up, and the messages that waited for it follow (R389). What the port's lanes then carry: R387,
R398. -/
def State.prioArrive (s : State) (m : PrioHead) (b : PrioBody) (hub : Fin 8 := 0) : State :=
  if !(s.port (m.port.val / 2) (m.port.val % 2)).up then s
  else (((s.prioIn m b hub).1.prioNext m.port.val).foldl (fun s x => s.prioOne x.1 x.2.1 x.2.2) (s.prioOne m b hub)).linkAfter
    (m.port.val / 2) (m.port.val % 2) (s.port (m.port.val / 2) (m.port.val % 2)).line.length

/-- VOTE (R367, R368). -/
def execVote (m : PrioHead) (b : VoteBody) (s : State) : Out := .next (s.prioArrive m (.vote b))

/-- OUTCOME (R367, R370). -/
def execOutcome (m : PrioHead) (b : OutcomeBody) (s : State) : Out := .next (s.prioArrive m (.outcome b))

/-- FAULT_NOTICE (R446, R447). -/
def execFaultNotice (m : PrioHead) (b : NoticeBody) (s : State) : Out := .next (s.prioArrive m (.notice b))

/-- READY (R451, R494, R495). -/
def execReady (m : PrioHead) (b : ReadyBody) (s : State) : Out := .next (s.prioArrive m (.ready b))

/-- SUBST (R451, R460). -/
def execSubst (m : PrioHead) (b : SubstBody) (s : State) : Out := .next (s.prioArrive m (.subst b))

/-- GO (R370, R450, R451). -/
def execGo (m : PrioHead) (b : GoBody) (s : State) : Out := .next (s.prioArrive m (.go b))

/-- DONE (R451). -/
def execDone (m : PrioHead) (gen : W64) (s : State) : Out := .next (s.prioArrive m (.done gen))

/-- OPEN (R451 order 11). -/
def execOpenJob (m : PrioHead) (s : State) : Out := .next (s.prioArrive m .openJob)

/-- STALL (R454, R455). -/
def execStall (m : PrioHead) (attempt : BitVec 4) (s : State) : Out := .next (s.prioArrive m (.stall attempt))

/-- DIGEST (R331): the hub is the one that compares it. -/
def execDigest (m : PrioHead) (hb : Fin 8) (b : DigestBody) (s : State) : Out := .next (s.prioArrive m (.digest b) hb)

/-- PHASE (R375): each crown records the boundary it has received, and its part of the phase runs. -/
def execPhase (m : PrioHead) (b : PhaseBody) (s : State) : Out := .next (s.prioArrive m (.phase b))

/-- TIME_SYNC (R413). -/
def execTimeSync (m : PrioHead) (t1 : Nat) (s : State) : Out := .next (s.prioArrive m (.timeSync t1))

/-- TIME_REPLY (R413). -/
def execTimeReply (m : PrioHead) (t2 t3 : Nat) (s : State) : Out := .next (s.prioArrive m (.timeReply t2 t3))

end Sys2Proof.Machine
end

