-- ==== Sys2Proof/Machine/Repeat.lean ====
section
/-! DEFINITION. REPEAT_BEGIN and REPEAT_END (R274) in tile and hub lists. In a pour list and a hub list the items before a marker may
still be in progress when the list moves past it (R83, R277, R285). -/
namespace Sys2Proof.Machine

/-- The pour list of a cluster moved on to its next repeat marker, with the number of LOADs and items before it, and the marker, where
its words are read and its wait is met (R83, R273, R274). A marker that signals waits until every item before it is done (DESIGN
CHOICE: the spec gives a marker no completion of its own). -/
def State.pourRepeat (s : State) (t k : Nat) : Option ((ListRun × Nat × Nat) × Entry PourItem) :=
  let r := (s.ltile t).run k
  let a := (s.cluster t k).arr
  let l := s.pourList t k
  match markerFrom l r.pos with
  | none => none
  | some m => match l[m]? with
    | none => none
    | some e =>
      let seg := itemsFrom (l.drop r.pos) r.pos
      let left := (numberItems r seg (a.loads, a.items)).map Prod.fst
      let n := seg.foldl (fun n x => passItem n x.2.2.code) (a.loads, a.items)
      let r := r.leave m left
      if s.crown.openStep.isSome && !r.stopped && s.entryRead t k m && s.waitMet t e.head (r.count m) && (e.head.sig.isNone || r.pend = [])
      then some ((r, n), e) else none

/-- Move a pour list past a marker. -/
def State.passMarker (s : State) (t k : Nat) (r : ListRun) (n : Nat × Nat) (h : Head) : State :=
  ((s.updCluster t k fun c => { c with arr := { c.arr with loads := n.1, items := n.2 } }).updLtile t fun x =>
    x.setRun k r).tileItemSignal t h.sig

/-- Times a REPEAT_BEGIN runs its group (R274). -/
def State.repeats (s : State) (c : Nat) (fm : Bool) (mb : Nat) : Nat := if fm then s.chunksOf mb else c

/-- REPEAT_BEGIN of a tile's list (R274). -/
def State.tileBegin (s : State) (t l : Nat) : State :=
  if l < 4 then match s.pourRepeat t l with
    | some ((r, n), .rbegin h c fm mb) => s.passMarker t l (r.begin (s.pourList t l) (s.repeats c fm mb)) n h
    | some (_, .item _ _) => s
    | some (_, .rend _) => s
    | none => s
  else match s.tileMarker t l with
    | some (.rbegin h c fm mb) =>
      (s.updLtile t fun x => x.setRun l ((x.run l).begin (s.tileMould t |>.marks l) (s.repeats c fm mb))).tileItemSignal t h.sig
    | some (.item _ _) => s
    | some (.rend _) => s
    | none => s

/-- REPEAT_END of a tile's list (R274). -/
def State.tileEnd (s : State) (t l : Nat) : State :=
  if l < 4 then match s.pourRepeat t l with
    | some ((r, n), .rend h) => s.passMarker t l r.finishRepeat n h
    | some (_, .item _ _) => s
    | some (_, .rbegin _ _ _ _) => s
    | none => s
  else match s.tileMarker t l with
    | some (.rend h) => (s.updLtile t fun x => x.setRun l (x.run l).finishRepeat).tileItemSignal t h.sig
    | some (.item _ _) => s
    | some (.rbegin _ _ _ _) => s
    | none => s

/-- REPEAT_BEGIN of a hub's list (R274, R285). -/
def State.hubBegin (s : State) (h l : Nat) : State :=
  match s.hubRepeat h l with
  | some (r, .rbegin hd c fm mb) =>
    (s.updHub h fun x => x.setRun l (r.begin (s.hubList h l) (s.repeats c fm mb))).hubItemSignal h hd.sig
  | some (_, .item _ _) => s
  | some (_, .rend _) => s
  | none => s

/-- REPEAT_END of a hub's list (R274, R285). -/
def State.hubEnd (s : State) (h l : Nat) : State :=
  match s.hubRepeat h l with
  | some (r, .rend hd) => (s.updHub h fun x => x.setRun l r.finishRepeat).hubItemSignal h hd.sig
  | some (_, .item _ _) => s
  | some (_, .rbegin _ _ _ _) => s
  | none => s

/-- REPEAT_BEGIN (R274). -/
def execRepeatBegin (l : ListAt) (s : State) : Out :=
  .next (match l with
    | .tile t l => s.tileBegin t.val l.val
    | .hub h l => s.hubBegin h.val l.val)

/-- REPEAT_END (R274). -/
def execRepeatEnd (l : ListAt) (s : State) : Out :=
  .next (match l with
    | .tile t l => s.tileEnd t.val l.val
    | .hub h l => s.hubEnd h.val l.val)

end Sys2Proof.Machine
end

