-- ==== Sys2Proof/Machine/Service.lean ====
section
/-! DEFINITION. Identity and attestation (R500, R501) and service mode (R502 to R505, R520). -/
namespace Sys2Proof.Machine

/-! ### Attestation -/

/-- Bytes 0 to 255 of the attestation report (R501). -/
def State.attestBody (s : State) (nonce : List Byte) : List Byte :=
  let x := s.startup
  let hub := fun (h : Nat) => (s.hub h).revision
  let tile := fun (p : Nat) => (s.tile p).revision
  let digest : List Byte := match x.header with | some h => beBytes 64 h.digest.toNat | none => List.replicate 64 0
  let v := s.versions
  leBytes 4 0x41540059 ++ leBytes 2 1 ++ leBytes 2 (b2n x.service + 2 * b2n x.spare + 4 * b2n x.imported) ++ leBytes 8 Config.serial.toNat ++
    nonce ++ digest ++ leBytes 1 x.keySlot.toNat ++ leBytes 1 x.refusal.toNat ++ leBytes 2 (x.rank.toNat + 2048 * x.site.toNat) ++
    leBytes 1 Config.stepping.toNat ++ leBytes 1 s.orderNow ++ leBytes 2 0 ++
    leBytes 1 (bits v 39 32) ++ leBytes 1 (bits v 31 24) ++ leBytes 1 (bits v 23 16) ++ leBytes 1 (bits v 15 8) ++ leBytes 1 (bits v 7 0) ++ leBytes 3 0 ++
    leBytes 1 Config.crownRevision.toNat ++ (List.range 8).map hub ++ (List.range 56).map tile ++ leBytes 7 0 ++
    leBytes 8 s.crown.gen ++ leBytes 8 (s.time.ns % 2 ^ 64) ++ leBytes 40 0

/-- The whole report: signed with the identity key over the SHA-512 of its first 256 bytes (R501). -/
def State.attestReport (s : State) (nonce : List Byte) : List Byte :=
  let b := s.attestBody nonce
  let sig := ecdsaSign (s.idKey.getD 1) (sha512 b)
  b ++ beBytes 66 sig.1 ++ beBytes 66 sig.2

/-- ATTEST (R501, R515): served from order 2 on, in service mode and while a job runs. -/
def execAttest (f : Frame) (s : State) : Out :=
  .next (s.take f 0 fun s =>
    if f.payload.length ≠ 32 then s.answer stBadParam
    else ({ payload := s.attestReport f.payload ++ Config.certificate }, s))

/-! ### Service mode -/

/-- Long operations that service mode ends (R502, R516): each with its one COMPLETE. -/
def State.endOps (s : State) : State := s.crown.ops.foldl (fun s o => s.complete o.1 stFailed 0 0) s

/-- The crown's part of the device with every hub, tile and memory powered down, and no job: its log, its handles and its counters stay
(R502). -/
def Crown.serviced (c : Crown) : Crown :=
  { job := c.job, nextHandle := c.nextHandle, seq := c.seq, lastTime := c.lastTime, log := c.log, head := c.head, overwritten := c.overwritten
    stepLast := c.stepLast, lastCode := c.lastCode, window := c.window, dross := c.dross }

/-- SERVICE (R502): accepted while no job is ACTIVE or SUSPENDED; any start in progress is abandoned. -/
def execService (f : Frame) (s : State) : Out :=
  .next (s.take f 0 fun s =>
    if s.crown.job = .active || s.crown.job = .suspended then s.answer stState
    else if s.startup.service then ({}, s)
    else
      let s := s.endOps
      let x := s.startup
      let s : State :=
        { s with crown := s.crown.serviced, loaded := {}, hubs := keepRepairs s.hubs, tiles := [], mem := [], memErr := [], poison := []
                 startup := { board := x.board, service := true, done := x.done.filter (fun n => decide (n ≤ 2)), forced := x.forced, site := x.site
                              rank := x.rank, keySlot := x.keySlot, header := x.header, refusal := x.refusal } }
      let p := s.power
      ({}, { s with power := { p with quenching := false, quenched := false, entering := false, mitten := false, waking := false, soft := none
                                      floorTiles := 0, floorOn := false, reports := [], cuffs := [], cuffReports := [], quenchCuffs := [] } }))

/-- A service operation: outside service mode it is acknowledged STATE (R520). -/
def State.serviceOp (s : State) (f : Frame) (run : State → Reply × State) : State :=
  s.take f 0 fun t => if t.startup.service then run t else t.answer stState

/-- Whether a flash range lies below the device area (R479, R520). -/
def State.belowArea (s : State) (a n : Nat) : Bool := decide (a + n ≤ s.deviceArea)

/-- ERASE (R503, R520): one 64 KiB sector; the service journal opens. -/
def execErase (f : Frame) (s : State) : Out :=
  .next (s.serviceOp f fun s =>
    let a := f.param0.toNat
    if a % 65536 ≠ 0 || !s.belowArea a 65536 then s.answer stBadParam
    else ({}, { s with journal := true, flash := dropRange s.flash a 65536 }))

/-- PROGRAM (R503, R520): a program clears bits and sets none (PRESUMED: NOR flash); the service journal opens. -/
def execProgram (f : Frame) (s : State) : Out :=
  .next (s.serviceOp f fun s =>
    let a := f.param0.toNat
    if a % 256 ≠ 0 || !s.belowArea a f.payload.length then s.answer stBadParam
    else ({}, { s with journal := true, flash := f.payload.zipIdx.foldl (fun (t : Tbl Byte) b => tput 0xFF t (a + b.2) (tget 0xFF t (a + b.2) &&& b.1)) s.flash }))

/-- A flash byte as READ answers it: the spec gives the journal no layout. -/
def State.flashRead (s : State) (a : Nat) : Byte :=
  if s.deviceArea ≤ a && a < s.deviceArea + 65536 then Config.journalByte s.journal (a - s.deviceArea) else s.flashByte a

/-- READ (R520): up to 64 KiB of the populated flash. -/
def execRead (f : Frame) (s : State) : Out :=
  .next (s.serviceOp f fun s =>
    let a := f.param0.toNat
    let n := f.param1.toNat
    if 65536 < n || s.deviceArea + 0x4000000 < a + n then s.answer stBadParam
    else ({ payload := (List.range n).map fun i => s.flashRead (a + i) }, s))

/-- VERIFY (R503, R520): the code in PARAM0; a pass closes the journal. -/
def execVerify (f : Frame) (s : State) : Out :=
  .next (s.serviceOp f fun s =>
    let c := s.verifyCode
    ({ param0 := some c.toNat }, if c = 0 then { s with journal := false } else s))

/-- REVOKE (R504): only while the pattern in flash verifies under another slot that is not revoked. -/
def execRevoke (f : Frame) (s : State) : Out :=
  .next (s.serviceOp f fun s =>
    let n := f.param0.toNat
    if 3 < n then s.answer stBadParam
    else if s.verifyCode = 0 && s.flashNat 38 1 ≠ n then ({}, { s with revoked := lset s.revoked n true })
    else s.answer stFailed)

/-- EXIT (R505): service mode ends and order 2 begins. -/
def execExit (f : Frame) (s : State) : Out :=
  .next (s.serviceOp f fun s =>
    ({}, ({ s with startup := { board := s.startup.board }, crown := { s.crown.serviced with job := .none } } : State).boot))

end Sys2Proof.Machine
end

