-- ==== Sys2Proof/Machine/ThreadVector.lean ====
section
/-! DEFINITION. Vector floating-point arithmetic (R177 to R180), special functions and derivatives (R161 to R163, R188,
R189), and horizontal reductions (R190 to R192). -/
namespace Sys2Proof.Machine

/-- Write one rounded value per active lane, with the conditions of the active lanes (R133, R165). -/
def TEnv.writeRounded (e : TEnv) (f : Nat → Rounded) : TRes :=
  let rs := e.lanes.map fun i => (i, f i)
  e.done (rs.foldl (fun x r => writeLane x e.w.dst r.1 (BitVec.ofNat 32 r.2.bits)) e.x)
    (rs.any fun r => r.2.inv) (rs.any fun r => r.2.ovf)

/-- The destination format of the vector floating-point class (R177). -/
def TEnv.dstFmt (e : TEnv) : Fmt := (Fmt.ofCode e.w.fmt).getD .f32

/-- Field use of the class with one, two or three lane sources (R177). -/
def useFp1 : Use := { dst := .vec, s1 := .lanes, fmts := [0, 1, 2], mod := 0x3 }
def useFp2 : Use := { dst := .vec, s1 := .lanes, s2 := .lanes, fmts := [0, 1, 2], mod := 0xF }
def useFp3 : Use := { dst := .vec, s1 := .lanes, s2 := .lanes, s3 := .lanes, fmts := [0, 1, 2], mod := 0x3F }

/-- Whether a zero-aware order places a before b: -0 is below +0 (R179). -/
def numBelow (a b : Num) : Bool :=
  let c := a.cmp b
  decide (c < 0) || (c == 0 && a.neg && !b.neg)

/-- The smaller of two values; a NaN gives NaN (R179). -/
def numMin (a b : Num) : Num := if a = .nan || b = .nan then .nan else if numBelow b a then b else a

/-- The larger of two values; a NaN gives NaN (R179). -/
def numMax (a b : Num) : Num := if a = .nan || b = .nan then .nan else if numBelow a b then b else a

/-- VADD (R179). -/
def execVadd (i : Issue) (s : State) : Out :=
  thread 0x10 (fun _ => useFp2) (fun e => e.writeRounded fun l => fpAdd e.dstFmt (e.num 0 l) (e.num 1 l)) i s

/-- VSUB (R179). -/
def execVsub (i : Issue) (s : State) : Out :=
  thread 0x11 (fun _ => useFp2) (fun e => e.writeRounded fun l => fpAdd e.dstFmt (e.num 0 l) (e.num 1 l).flip) i s

/-- VMUL (R179). -/
def execVmul (i : Issue) (s : State) : Out :=
  thread 0x12 (fun _ => useFp2) (fun e => e.writeRounded fun l => fpMul e.dstFmt (e.num 0 l) (e.num 1 l)) i s

/-- VFMA (R179): one rounding. -/
def execVfma (i : Issue) (s : State) : Out :=
  thread 0x13 (fun _ => useFp3)
    (fun e => e.writeRounded fun l => fpFma e.dstFmt (e.num 0 l) (e.num 1 l) (e.num 2 l)) i s

/-- VMIN (R179). -/
def execVmin (i : Issue) (s : State) : Out :=
  thread 0x14 (fun _ => useFp2) (fun e => e.writeRounded fun l => roundNear e.dstFmt (numMin (e.num 0 l) (e.num 1 l))) i s

/-- VMAX (R179). -/
def execVmax (i : Issue) (s : State) : Out :=
  thread 0x15 (fun _ => useFp2) (fun e => e.writeRounded fun l => roundNear e.dstFmt (numMax (e.num 0 l) (e.num 1 l))) i s

/-- VABS (R179). -/
def execVabs (i : Issue) (s : State) : Out :=
  thread 0x16 (fun _ => useFp1) (fun e => e.writeRounded fun l => roundNear e.dstFmt (e.num 0 l).abs) i s

/-- VNEG (R179). -/
def execVneg (i : Issue) (s : State) : Out :=
  thread 0x17 (fun _ => useFp1) (fun e => e.writeRounded fun l => roundNear e.dstFmt (e.num 0 l).flip) i s

/-- VCMP (R179, R180): kinds 0x0 to 0x5; a higher one is ILLEGAL_FIELD. No compare raises a condition. -/
def execVcmp (i : Issue) (s : State) : Out :=
  thread 0x18 (fun w => { dst := .pred, s1 := .lanes, s2 := .lanes, mod := if bits w.mod 23 20 ≤ 5 then 0xF0000F else 0xF })
    (fun e => e.done (e.writePredLanes e.x e.w.dst fun l => fpCompare (bits e.w.mod 23 20) (e.num 0 l) (e.num 1 l))) i s

/-- VSEL (R179): bits copied unchanged. -/
def execVsel (i : Issue) (s : State) : Out :=
  thread 0x19 (fun _ => { dst := .vec, s1 := .lanes, s2 := .lanes, s3 := .pred })
    (fun e => e.done (e.writeVec e.x e.w.dst fun l =>
      if (readPred e.x e.w.s3).getLsbD l then e.lane e.w.s1 l else e.lane e.w.s2 l)) i s

/-- VMOV (R179): bits copied unchanged. -/
def execVmov (i : Issue) (s : State) : Out :=
  thread 0x1A (fun _ => { dst := .vec, s1 := .lanes })
    (fun e => e.done (e.writeVec e.x e.w.dst fun l => e.lane e.w.s1 l)) i s

/-! ### Special functions -/

/-- Field use of the special functions (R188) and of the derivatives without and with a third source (R189). -/
def useSfu : Use := { dst := .vec, s1 := .lanes, mod := 0x3 }
def useDer2 : Use := { dst := .vec, s1 := .lanes, s2 := .lanes, mod := 0xF }
def useDer3 : Use := { dst := .vec, s1 := .lanes, s2 := .lanes, s3 := .lanes, mod := 0x3F }

/-- EXP2 (R161, R162, R188). -/
def execExp2 (i : Issue) (s : State) : Out :=
  thread 0x60 (fun _ => useSfu) (fun e => e.writeRounded fun l => sfuExp2 (e.num 0 l)) i s

/-- LOG2 (R161, R162, R188). -/
def execLog2 (i : Issue) (s : State) : Out :=
  thread 0x61 (fun _ => useSfu) (fun e => e.writeRounded fun l => sfuLog2 (e.num 0 l)) i s

/-- RCP (R161, R162, R188). -/
def execRcp (i : Issue) (s : State) : Out :=
  thread 0x62 (fun _ => useSfu) (fun e => e.writeRounded fun l => sfuRcp (e.num 0 l)) i s

/-- RSQ (R161, R162, R188). -/
def execRsq (i : Issue) (s : State) : Out :=
  thread 0x63 (fun _ => useSfu) (fun e => e.writeRounded fun l => sfuRsq (e.num 0 l)) i s

/-- TANH (R161, R162, R188). -/
def execTanh (i : Issue) (s : State) : Out :=
  thread 0x64 (fun _ => useSfu) (fun e => e.writeRounded fun l => sfuTanh (e.num 0 l)) i s

/-- SIGM (R161, R162, R188). -/
def execSigm (i : Issue) (s : State) : Out :=
  thread 0x65 (fun _ => useSfu) (fun e => e.writeRounded fun l => sfuSigm (e.num 0 l)) i s

/-- ERF (R161, R162, R188). -/
def execErf (i : Issue) (s : State) : Out :=
  thread 0x66 (fun _ => useSfu) (fun e => e.writeRounded fun l => sfuErf (e.num 0 l)) i s

/-! ### Derivatives from outputs -/

/-- One. -/
def numOne : Num := .fin false 1 0

/-- A rounded product step of a derivative, with the conditions so far (R163, R189). -/
def stepMul (c : Rounded) (a b : Num) : Rounded :=
  let r := fpMul .f32 a b
  { r with inv := c.inv || r.inv, ovf := c.ovf || r.ovf }

/-- A rounded difference step of a derivative, with the conditions so far. -/
def stepSub (c : Rounded) (a b : Num) : Rounded :=
  let r := fpAdd .f32 a b.flip
  { r with inv := c.inv || r.inv, ovf := c.ovf || r.ovf }

/-- The value of a step's result. -/
def Rounded.num (r : Rounded) : Num := decode .f32 r.bits

/-- A NaN in y or dy gives NaN (R163); what the steps raise on operands that are no NaN stays raised (R189). -/
def nanOr (y dy : Num) (r : Rounded) : Rounded := if y = .nan || dy = .nan then { r with bits := Fmt.f32.nan } else r

/-- Whether a value that is not NaN is above zero. -/
def positive (y : Num) : Bool := decide (0 < y.cmp Num.zero)

/-- DRELU (R163, R189). -/
def execDrelu (i : Issue) (s : State) : Out :=
  thread 0x68 (fun _ => useDer2) (fun e => e.writeRounded fun l =>
    let y := e.num 0 l
    let dy := e.num 1 l
    nanOr y dy (if positive y then roundNear .f32 dy else {})) i s

/-- DLRELU (R163, R189): the slope is source 3. -/
def execDlrelu (i : Issue) (s : State) : Out :=
  thread 0x69 (fun _ => useDer3) (fun e => e.writeRounded fun l =>
    let y := e.num 0 l
    let dy := e.num 1 l
    nanOr y dy (if positive y then roundNear .f32 dy else stepMul {} (e.num 2 l) dy)) i s

/-- DSIGM (R163, R189). -/
def execDsigm (i : Issue) (s : State) : Out :=
  thread 0x6A (fun _ => useDer2) (fun e => e.writeRounded fun l =>
    let y := e.num 0 l
    let dy := e.num 1 l
    let t := stepSub {} numOne y
    let u := stepMul t y t.num
    nanOr y dy (stepMul u dy u.num)) i s

/-- DTANH (R163, R189). -/
def execDtanh (i : Issue) (s : State) : Out :=
  thread 0x6B (fun _ => useDer2) (fun e => e.writeRounded fun l =>
    let y := e.num 0 l
    let dy := e.num 1 l
    let t := stepMul {} y y
    let u := stepSub t numOne t.num
    nanOr y dy (stepMul u dy u.num)) i s

/-- DEXP (R163, R189). -/
def execDexp (i : Issue) (s : State) : Out :=
  thread 0x6C (fun _ => useDer2) (fun e => e.writeRounded fun l =>
    nanOr (e.num 0 l) (e.num 1 l) (stepMul {} (e.num 1 l) (e.num 0 l))) i s

/-- DSMAX (R163, R189): the row scalar is source 3. -/
def execDsmax (i : Issue) (s : State) : Out :=
  thread 0x6D (fun _ => useDer3) (fun e => e.writeRounded fun l =>
    let y := e.num 0 l
    let dy := e.num 1 l
    let d := stepSub {} dy (e.num 2 l)
    nanOr y dy (stepMul d y d.num)) i s

/-! ### Horizontal reductions -/

/-- The fixed tree of R190 over an accumulator type; m is the largest power of two below the length. -/
def treeReduce {α : Type} (d : α) (f : α → α → α) : Nat → List α → α
  | 0, _ => d
  | n + 1, l =>
    match l with
    | [] => d
    | [a] => a
    | _ =>
      let m := 2 ^ Nat.log2 (l.length - 1)
      f (treeReduce d f n (l.take m)) (treeReduce d f n (l.drop m))

/-- Number of registers a horizontal reduction runs over (R190). -/
def Word.hregs (w : Word) : Nat := bits w.mod 10 8 + 1

/-- The (register, lane) list of a source as words (R190). -/
def TEnv.hlist (e : TEnv) (r : Nat) : List W32 :=
  (List.range (16 * e.w.hregs)).map fun i => tget 0 e.x.v (16 * r + i)

/-- Write a reduction's result: to a scalar with zero above, to a vector's active lanes (R192). -/
def TEnv.writeH (e : TEnv) (r : Rounded) : TRes :=
  let v := BitVec.ofNat 32 r.bits
  let x := if e.w.dst < 32 then e.writeVec e.x e.w.dst fun _ => v else writeScalar e.x e.w.dst (v.setWidth 64)
  e.done x r.inv r.ovf

/-- The list of a floating-point reduction: an inactive lane enters as the identity and raises nothing (R190, R192). -/
def TEnv.hnums (e : TEnv) (ident : Nat) : List Rounded :=
  (e.hlist e.w.s1).zipIdx.map fun a => { bits := if e.active (a.2 % 16) then a.1.toNat else ident }

/-- The list of an integer reduction. -/
def TEnv.hints (e : TEnv) (ident : Nat) : List Rounded := e.hnums ident

/-- A combine step that carries the conditions of both sides (R192). -/
def combine (f : Num → Num → Rounded) (a b : Rounded) : Rounded :=
  let r := f a.num b.num
  { r with inv := a.inv || b.inv || r.inv, ovf := a.ovf || b.ovf || r.ovf }

/-- A combine step on integers. -/
def combineInt (f : Nat → Nat → Nat) (a b : Rounded) : Rounded := { bits := f a.bits b.bits }

/-- A lane of a list of one register enters as it stands: NaN payloads are made canonical by the first combine (R54). -/
def useH (dot : Bool) (w : Word) : Use :=
  { dst := .vecOrScalar, s1 := .vec, s2 := if dot then .vec else .none, fmts := if dot then [0] else [0, 3], mod := 0x700, n := w.hregs }

/-- HSUM (R190, R192). -/
def execHsum (i : Issue) (s : State) : Out :=
  thread 0x70 (useH false) (fun e =>
    e.writeH (if e.w.fmt = 3 then treeReduce {} (combineInt fun a b => (a + b) % 2 ^ 32) 10 (e.hints 0)
      else treeReduce {} (combine (fpAdd .f32)) 10 (e.hnums 0x80000000))) i s

/-- HMAX (R190, R192). -/
def execHmax (i : Issue) (s : State) : Out :=
  thread 0x71 (useH false) (fun e =>
    e.writeH (if e.w.fmt = 3 then
        treeReduce {} (combineInt fun a b => if sext 32 a < sext 32 b then b else a) 10 (e.hints 0x80000000)
      else treeReduce {} (combine fun a b => roundNear .f32 (numMax a b)) 10 (e.hnums 0xFF800000))) i s

/-- HMIN (R190, R192). -/
def execHmin (i : Issue) (s : State) : Out :=
  thread 0x72 (useH false) (fun e =>
    e.writeH (if e.w.fmt = 3 then
        treeReduce {} (combineInt fun a b => if sext 32 b < sext 32 a then b else a) 10 (e.hints 0x7FFFFFFF)
      else treeReduce {} (combine fun a b => roundNear .f32 (numMin a b)) 10 (e.hnums 0x7F800000))) i s

/-- The rounded products of HDOT (R191). -/
def TEnv.hdots (e : TEnv) : List Rounded :=
  ((e.hlist e.w.s1).zip (e.hlist e.w.s2)).zipIdx.map fun a =>
    if e.active (a.2 % 16) then fpMul .f32 (f32 a.1.1) (f32 a.1.2) else { bits := 0x80000000 }

/-- HDOT (R191, R192). -/
def execHdot (i : Issue) (s : State) : Out :=
  thread 0x73 (useH true) (fun e => e.writeH (treeReduce {} (combine (fpAdd .f32)) 10 e.hdots)) i s

end Sys2Proof.Machine
end

