-- ==== Sys2Proof/Machine/ThreadConvert.lean ====
section
/-! DEFINITION. Conversions (R184 to R187) and draws (R200). -/
namespace Sys2Proof.Machine

/-- Source format of CVT and CVTSR, MOD[23:20] (R184). -/
def Word.cvtSrc (w : Word) : Option Fmt := Fmt.ofCode (bits w.mod 23 20)

/-- SCALED, MOD[18] (R184). -/
def Word.scaled (w : Word) : Bool := bit w.mod 18

/-- Whether the formats of a conversion are allowed in a thread instruction (R173, R186). -/
def cvtFmtsOk (w : Word) : Bool :=
  match w.cvtSrc, Fmt.ofCode w.fmt with
  | some sf, some tf => sf ≠ .f64 && tf ≠ .f64 && (!w.scaled || sf.isMx || tf.isMx)
  | _, _ => false

/-- Field use of CVT and CVTSR (R184, R186). -/
def useCvt (w : Word) : Use :=
  { dst := .vec, s1 := .lanes, s2 := if w.scaled then .scalar else .none, mod := 0xFC0000
    fmts := if cvtFmtsOk w then [w.fmt] else [] }

/-- Convert one value to an MX element format under a given scale (R186, R573). -/
def cvtToMx (f : Fmt) (r : Rnd) (ovfMode : Bool) (c : Nat) (v : Num) : Rounded :=
  if c = 0xFF then {}
  else match v with
    | .fin neg mag ex => mxElem f r neg mag (ex + 127 - c)
    | _ => encode f r ovfMode v

/-- Conversion of one lane (R184 to R186). -/
def TEnv.cvtLane (e : TEnv) (r : Rnd) (l : Nat) : Rounded :=
  let sf := e.w.cvtSrc.getD .f32
  let tf := e.dstFmt
  let c := if e.w.scaled then (e.scalar e.w.s2).toNat % 256 else 0
  let raw := (e.lane e.w.s1 l).toNat
  let v := if e.w.scaled && sf.isMx then decodeMx sf c raw else decode sf raw
  if e.w.scaled && tf.isMx then cvtToMx tf r (bit e.w.mod 19) c v
  else encode tf r (bit e.w.mod 19) v

/-- CVT (R184 to R186): to nearest even. -/
def execCvt (i : Issue) (s : State) : Out :=
  thread 0x50 useCvt (fun e => e.writeRounded (e.cvtLane .rne)) i s

/-- A result after which the draw counter has advanced (R160, R200). -/
def TRes.drew (r : TRes) (n : Nat) : TRes :=
  match r with
  | .ok s x j inv ovf => .ok s { x with draws := x.draws + BitVec.ofNat 32 n } j inv ovf
  | .wait => .wait
  | .trap s c => .trap s c
  | .halt s => .halt s

/-- CVTSR (R184 to R186, R200): stochastic, four draws. -/
def execCvtsr (i : Issue) (s : State) : Out :=
  thread 0x52 useCvt (fun e =>
    e.guard (e.drawCauses 4) ((e.writeRounded fun l => e.cvtLane (.sr (e.drawSlice l)) l).drew 4)) i s

/-- Source format of MXSCALE: 0 and 1 both mean F32 (R187). -/
def mxscaleSrc (w : Word) : Fmt := if bits w.mod 1 0 = 0 then .f32 else srcFmt .f32 (bits w.mod 1 0)

/-- MXSCALE (R187): the scale byte of the block of src1 and src1 + 1, inactive lanes left out. -/
def execMxscale (i : Issue) (s : State) : Out :=
  thread 0x51 (fun w => { dst := .sreg, s1 := .vec, mod := 0x80003, n := 2
                          fmts := if ((Fmt.ofCode w.fmt).getD .f32).isMx then [w.fmt] else [] })
    (fun e =>
      let vs := (List.range 2).flatMap fun j => e.lanes.map fun l =>
        decode (mxscaleSrc e.w) (tget 0 e.x.v (16 * (e.w.s1 + j) + l)).toNat
      e.done (writeScalar e.x e.w.dst (BitVec.ofNat 64 (mxScaleByte e.dstFmt (bit e.w.mod 19) vs)))) i s

/-! ### Draws -/

/-- DRAW (R200): one draw, all 64 bits. -/
def execDraw (i : Issue) (s : State) : Out :=
  thread 0xC0 (fun _ => { dst := .sreg, pred := false })
    (fun e => e.guard (e.drawCauses 1) ((e.done (writeScalar e.x e.w.dst (e.draw e.x.draws.toNat))).drew 1)) i s

/-- VDRAW16 (R200): four draws. -/
def execVdraw16 (i : Issue) (s : State) : Out :=
  thread 0xC1 (fun _ => { dst := .vec })
    (fun e => e.guard (e.drawCauses 4)
      ((e.done (e.writeVec e.x e.w.dst fun l => BitVec.ofNat 32 (e.drawSlice l))).drew 4)) i s

/-- VDRAW32 (R200): eight draws. -/
def execVdraw32 (i : Issue) (s : State) : Out :=
  thread 0xC2 (fun _ => { dst := .vec })
    (fun e => e.guard (e.drawCauses 8)
      ((e.done (e.writeVec e.x e.w.dst fun l =>
        BitVec.ofNat 32 ((e.draw (e.x.draws.toNat + l / 2)).toNat >>> (32 * (l % 2))))).drew 8)) i s

/-- DMASK (R200): four draws; lane i is kept when its slice is below T = src1 bits [16:0]. -/
def execDmask (i : Issue) (s : State) : Out :=
  thread 0xC3 (fun _ => { dst := .pred, s1 := .scalar })
    (fun e => e.guard (e.drawCauses 4)
      ((e.done (e.writePredLanes e.x e.w.dst fun l =>
        decide (e.drawSlice l < (e.scalar e.w.s1).toNat % 2 ^ 17))).drew 4)) i s

end Sys2Proof.Machine
end

