-- ==== Sys2Proof/Machine/ThreadInt.lean ====
section
/-! DEFINITION. Vector integer, scalar and predicate instructions (R180 to R183). -/
namespace Sys2Proof.Machine

/-- Field use of the vector integer class (R181): FMT I32. -/
def useInt : Use := { dst := .vec, s1 := .lanes, s2 := .lanes, fmts := [3] }

/-- A lane-by-lane integer result (R181): it wraps and raises nothing. -/
def TEnv.writeInt (e : TEnv) (f : W32 → W32 → W32) : TRes :=
  e.done (e.writeVec e.x e.w.dst fun l => f (e.lane e.w.s1 l) (e.lane e.w.s2 l))

/-- IADD (R181). -/
def execIadd (i : Issue) (s : State) : Out :=
  thread 0x20 (fun _ => useInt) (fun e => e.writeInt fun a b => a + b) i s

/-- ISUB (R181). -/
def execIsub (i : Issue) (s : State) : Out :=
  thread 0x21 (fun _ => useInt) (fun e => e.writeInt fun a b => a - b) i s

/-- IMUL (R181). -/
def execImul (i : Issue) (s : State) : Out :=
  thread 0x22 (fun _ => useInt) (fun e => e.writeInt fun a b => a * b) i s

/-- IAND (R181). -/
def execIand (i : Issue) (s : State) : Out :=
  thread 0x23 (fun _ => useInt) (fun e => e.writeInt fun a b => a &&& b) i s

/-- IOR (R181). -/
def execIor (i : Issue) (s : State) : Out :=
  thread 0x24 (fun _ => useInt) (fun e => e.writeInt fun a b => a ||| b) i s

/-- IXOR (R181). -/
def execIxor (i : Issue) (s : State) : Out :=
  thread 0x25 (fun _ => useInt) (fun e => e.writeInt fun a b => a ^^^ b) i s

/-- ISHL (R181). -/
def execIshl (i : Issue) (s : State) : Out :=
  thread 0x26 (fun _ => useInt) (fun e => e.writeInt fun a b => a <<< (b.toNat % 32)) i s

/-- ISHR (R181). -/
def execIshr (i : Issue) (s : State) : Out :=
  thread 0x27 (fun _ => useInt) (fun e => e.writeInt fun a b => a >>> (b.toNat % 32)) i s

/-- ISAR (R181). -/
def execIsar (i : Issue) (s : State) : Out :=
  thread 0x28 (fun _ => useInt) (fun e => e.writeInt fun a b => a.sshiftRight (b.toNat % 32)) i s

/-- IMIN (R181). -/
def execImin (i : Issue) (s : State) : Out :=
  thread 0x29 (fun _ => useInt) (fun e => e.writeInt fun a b => if b.slt a then b else a) i s

/-- IMAX (R181). -/
def execImax (i : Issue) (s : State) : Out :=
  thread 0x2A (fun _ => useInt) (fun e => e.writeInt fun a b => if a.slt b then b else a) i s

/-- Whether a compare kind is assigned (R180). -/
def kindOk (k : Nat) : Bool := (intCompare k 32 0 0).isSome

/-- ICMP (R180, R181): a reserved kind is ILLEGAL_FIELD. -/
def execIcmp (i : Issue) (s : State) : Out :=
  thread 0x2B (fun w => { dst := .pred, s1 := .lanes, s2 := .lanes, mod := 0xF00000
                          fmts := if kindOk (bits w.mod 23 20) then [3] else [] })
    (fun e => e.done (e.writePredLanes e.x e.w.dst fun l =>
      (intCompare (bits e.w.mod 23 20) 32 (e.lane e.w.s1 l).toNat (e.lane e.w.s2 l).toNat).getD false)) i s

/-- VLANE (R181): lane i = i + src1. -/
def execVlane (i : Issue) (s : State) : Out :=
  thread 0x2C (fun _ => { dst := .vec, s1 := .lanes, fmts := [3] })
    (fun e => e.done (e.writeVec e.x e.w.dst fun l => BitVec.ofNat 32 l + e.lane e.w.s1 l)) i s

/-! ### Scalars -/

/-- Field use of the scalar class (R182): FMT 0x0 takes B from src2, FMT 0x1 from MOD. -/
def useScalar (w : Word) : Use :=
  if w.fmt = 1 then { dst := .sreg, s1 := .scalar, fmts := [0, 1], mod := 0xFFFFFF, pred := false }
  else { dst := .sreg, s1 := .scalar, s2 := .scalar, fmts := [0, 1], pred := false }

/-- The second operand B (R182); n is how many MOD bits hold an immediate. -/
def TEnv.opB (e : TEnv) (n : Nat) : W64 :=
  if e.w.fmt = 1 then BitVec.ofInt 64 (sext n e.w.mod) else e.scalar e.w.s2

/-- A scalar result (R182). -/
def TEnv.writeS (e : TEnv) (f : W64 → W64 → W64) : TRes :=
  e.done (writeScalar e.x e.w.dst (f (e.scalar e.w.s1) (e.opB 24)))

/-- SADD (R182). -/
def execSadd (i : Issue) (s : State) : Out :=
  thread 0x30 useScalar (fun e => e.writeS fun a b => a + b) i s

/-- SSUB (R182). -/
def execSsub (i : Issue) (s : State) : Out :=
  thread 0x31 useScalar (fun e => e.writeS fun a b => a - b) i s

/-- SMUL (R182). -/
def execSmul (i : Issue) (s : State) : Out :=
  thread 0x32 useScalar (fun e => e.writeS fun a b => a * b) i s

/-- SAND (R182). -/
def execSand (i : Issue) (s : State) : Out :=
  thread 0x33 useScalar (fun e => e.writeS fun a b => a &&& b) i s

/-- SOR (R182). -/
def execSor (i : Issue) (s : State) : Out :=
  thread 0x34 useScalar (fun e => e.writeS fun a b => a ||| b) i s

/-- SXOR (R182). -/
def execSxor (i : Issue) (s : State) : Out :=
  thread 0x35 useScalar (fun e => e.writeS fun a b => a ^^^ b) i s

/-- SSHL (R182). -/
def execSshl (i : Issue) (s : State) : Out :=
  thread 0x36 useScalar (fun e => e.writeS fun a b => a <<< (b.toNat % 64)) i s

/-- SSHR (R182). -/
def execSshr (i : Issue) (s : State) : Out :=
  thread 0x37 useScalar (fun e => e.writeS fun a b => a >>> (b.toNat % 64)) i s

/-- SSAR (R182). -/
def execSsar (i : Issue) (s : State) : Out :=
  thread 0x38 useScalar (fun e => e.writeS fun a b => a.sshiftRight (b.toNat % 64)) i s

/-- SMOVI (R182): FMT must be 0x1. -/
def execSmovi (i : Issue) (s : State) : Out :=
  thread 0x39 (fun _ => { dst := .sreg, fmts := [1], mod := 0xFFFFFF, pred := false })
    (fun e => e.done (writeScalar e.x e.w.dst (BitVec.ofInt 64 (sext 24 e.w.mod)))) i s

/-- SLUI (R182): dst = (dst << 24) or MOD[23:0]; FMT must be 0x1. -/
def execSlui (i : Issue) (s : State) : Out :=
  thread 0x3A (fun _ => { dst := .sreg, fmts := [1], mod := 0xFFFFFF, pred := false })
    (fun e => e.done (writeScalar e.x e.w.dst ((e.scalar e.w.dst <<< 24) ||| BitVec.ofNat 64 e.w.mod))) i s

/-- Field use of SCMP (R180, R182): the kind in MOD[23:20], an immediate in MOD[19:0]. -/
def useScmp (w : Word) : Use :=
  let f := if kindOk (bits w.mod 23 20) then [0, 1] else []
  if w.fmt = 1 then { dst := .pred, s1 := .scalar, fmts := f, mod := 0xFFFFFF, pred := false }
  else { dst := .pred, s1 := .scalar, s2 := .scalar, fmts := f, mod := 0xF00000, pred := false }

/-- SCMP (R180, R182). -/
def execScmp (i : Issue) (s : State) : Out :=
  thread 0x3B useScmp (fun e =>
    let r := (intCompare (bits e.w.mod 23 20) 64 (e.scalar e.w.s1).toNat (e.opB 20).toNat).getD false
    e.done (writePred e.x e.w.dst (if r then 0xFFFF else 0))) i s

/-! ### Predicates -/

/-- Field use of PAND, POR and PXOR (R183). -/
def usePred2 : Use := { dst := .pred, s1 := .pred, s2 := .pred, pred := false }

/-- A predicate result of two predicates (R183). -/
def TEnv.writeP (e : TEnv) (f : W16 → W16 → W16) : TRes :=
  e.done (writePred e.x e.w.dst (f (readPred e.x e.w.s1) (readPred e.x e.w.s2)))

/-- PAND (R183). -/
def execPand (i : Issue) (s : State) : Out :=
  thread 0x40 (fun _ => usePred2) (fun e => e.writeP fun a b => a &&& b) i s

/-- POR (R183). -/
def execPor (i : Issue) (s : State) : Out :=
  thread 0x41 (fun _ => usePred2) (fun e => e.writeP fun a b => a ||| b) i s

/-- PXOR (R183). -/
def execPxor (i : Issue) (s : State) : Out :=
  thread 0x42 (fun _ => usePred2) (fun e => e.writeP fun a b => a ^^^ b) i s

/-- PNOT (R183). -/
def execPnot (i : Issue) (s : State) : Out :=
  thread 0x43 (fun _ => { dst := .pred, s1 := .pred, pred := false })
    (fun e => e.done (writePred e.x e.w.dst (~~~(readPred e.x e.w.s1)))) i s

/-- PSET (R183). -/
def execPset (i : Issue) (s : State) : Out :=
  thread 0x44 (fun _ => { dst := .pred, mod := 0xFFFF, pred := false })
    (fun e => e.done (writePred e.x e.w.dst (BitVec.ofNat 16 e.w.mod))) i s

/-- PMOV (R183). -/
def execPmov (i : Issue) (s : State) : Out :=
  thread 0x45 (fun _ => { dst := .pred, s1 := .pred, pred := false })
    (fun e => e.done (writePred e.x e.w.dst (readPred e.x e.w.s1))) i s

end Sys2Proof.Machine
end

