-- ==== Sys2Proof/Machine/Dispatch.lean ====
section
/-! DEFINITION. Which meaning each command has: one arm per constructor, each one direct call. -/
namespace Sys2Proof.Machine

/-- The effect of a command on everything but the queue. -/
def exec (i : Instr) (s : State) : Host.Outcome State Fault Refusal :=
  match i with
  | .start f => Sys2Proof.Machine.execStart f s
  | .suspend f => Sys2Proof.Machine.execSuspend f s
  | .resume f => Sys2Proof.Machine.execResume f s
  | .cancel f => Sys2Proof.Machine.execCancel f s
  | .switchMapping f => Sys2Proof.Machine.execSwitchMapping f s
  | .exportCkpt f => Sys2Proof.Machine.execExportCkpt f s
  | .exportChunk handle => Sys2Proof.Machine.execExportChunk handle s
  | .importCkpt f => Sys2Proof.Machine.execImportCkpt f s
  | .ckptData f => Sys2Proof.Machine.execCkptData f s
  | .replayStep f => Sys2Proof.Machine.execReplayStep f s
  | .replayDone => Sys2Proof.Machine.execReplayDone s
  | .readReg f => Sys2Proof.Machine.execReadReg f s
  | .writeReg f => Sys2Proof.Machine.execWriteReg f s
  | .hubPlateClearGo f => Sys2Proof.Machine.execHubPlateClearGo f s
  | .hubPlateClearDone h => Sys2Proof.Machine.execHubPlateClearDone h s
  | .drossClearClass f => Sys2Proof.Machine.execDrossClearClass f s
  | .drossClearAll f => Sys2Proof.Machine.execDrossClearAll f s
  | .logClear f => Sys2Proof.Machine.execLogClear f s
  | .timeNowRead f => Sys2Proof.Machine.execTimeNowRead f s
  | .attest f => Sys2Proof.Machine.execAttest f s
  | .mitten f => Sys2Proof.Machine.execMitten f s
  | .mittenComplete => Sys2Proof.Machine.execMittenComplete s
  | .wake f => Sys2Proof.Machine.execWake f s
  | .wakeComplete => Sys2Proof.Machine.execWakeComplete s
  | .service f => Sys2Proof.Machine.execService f s
  | .feedManifest f => Sys2Proof.Machine.execFeedManifest f s
  | .feedSegment f => Sys2Proof.Machine.execFeedSegment f s
  | .erase f => Sys2Proof.Machine.execErase f s
  | .program f => Sys2Proof.Machine.execProgram f s
  | .read f => Sys2Proof.Machine.execRead f s
  | .verify f => Sys2Proof.Machine.execVerify f s
  | .revoke f => Sys2Proof.Machine.execRevoke f s
  | .exit f => Sys2Proof.Machine.execExit f s
  | .yhlLinkUp version flightNs => Sys2Proof.Machine.execYhlLinkUp version flightNs s
  | .yhlLinkDown unacked => Sys2Proof.Machine.execYhlLinkDown unacked s
  | .vadd u => Sys2Proof.Machine.execVadd u s
  | .vsub u => Sys2Proof.Machine.execVsub u s
  | .vmul u => Sys2Proof.Machine.execVmul u s
  | .vfma u => Sys2Proof.Machine.execVfma u s
  | .vmin u => Sys2Proof.Machine.execVmin u s
  | .vmax u => Sys2Proof.Machine.execVmax u s
  | .vabs u => Sys2Proof.Machine.execVabs u s
  | .vneg u => Sys2Proof.Machine.execVneg u s
  | .vcmp u => Sys2Proof.Machine.execVcmp u s
  | .vsel u => Sys2Proof.Machine.execVsel u s
  | .vmov u => Sys2Proof.Machine.execVmov u s
  | .iadd u => Sys2Proof.Machine.execIadd u s
  | .isub u => Sys2Proof.Machine.execIsub u s
  | .imul u => Sys2Proof.Machine.execImul u s
  | .iand u => Sys2Proof.Machine.execIand u s
  | .ior u => Sys2Proof.Machine.execIor u s
  | .ixor u => Sys2Proof.Machine.execIxor u s
  | .ishl u => Sys2Proof.Machine.execIshl u s
  | .ishr u => Sys2Proof.Machine.execIshr u s
  | .isar u => Sys2Proof.Machine.execIsar u s
  | .imin u => Sys2Proof.Machine.execImin u s
  | .imax u => Sys2Proof.Machine.execImax u s
  | .icmp u => Sys2Proof.Machine.execIcmp u s
  | .vlane u => Sys2Proof.Machine.execVlane u s
  | .sadd u => Sys2Proof.Machine.execSadd u s
  | .ssub u => Sys2Proof.Machine.execSsub u s
  | .smul u => Sys2Proof.Machine.execSmul u s
  | .sand u => Sys2Proof.Machine.execSand u s
  | .sor u => Sys2Proof.Machine.execSor u s
  | .sxor u => Sys2Proof.Machine.execSxor u s
  | .sshl u => Sys2Proof.Machine.execSshl u s
  | .sshr u => Sys2Proof.Machine.execSshr u s
  | .ssar u => Sys2Proof.Machine.execSsar u s
  | .smovi u => Sys2Proof.Machine.execSmovi u s
  | .slui u => Sys2Proof.Machine.execSlui u s
  | .scmp u => Sys2Proof.Machine.execScmp u s
  | .pand u => Sys2Proof.Machine.execPand u s
  | .por u => Sys2Proof.Machine.execPor u s
  | .pxor u => Sys2Proof.Machine.execPxor u s
  | .pnot u => Sys2Proof.Machine.execPnot u s
  | .pset u => Sys2Proof.Machine.execPset u s
  | .pmov u => Sys2Proof.Machine.execPmov u s
  | .cvt u => Sys2Proof.Machine.execCvt u s
  | .cvtsr u => Sys2Proof.Machine.execCvtsr u s
  | .mxscale u => Sys2Proof.Machine.execMxscale u s
  | .exp2 u => Sys2Proof.Machine.execExp2 u s
  | .log2 u => Sys2Proof.Machine.execLog2 u s
  | .rcp u => Sys2Proof.Machine.execRcp u s
  | .rsq u => Sys2Proof.Machine.execRsq u s
  | .tanh u => Sys2Proof.Machine.execTanh u s
  | .sigm u => Sys2Proof.Machine.execSigm u s
  | .erf u => Sys2Proof.Machine.execErf u s
  | .drelu u => Sys2Proof.Machine.execDrelu u s
  | .dlrelu u => Sys2Proof.Machine.execDlrelu u s
  | .dsigm u => Sys2Proof.Machine.execDsigm u s
  | .dtanh u => Sys2Proof.Machine.execDtanh u s
  | .dexp u => Sys2Proof.Machine.execDexp u s
  | .dsmax u => Sys2Proof.Machine.execDsmax u s
  | .hsum u => Sys2Proof.Machine.execHsum u s
  | .hmax u => Sys2Proof.Machine.execHmax u s
  | .hmin u => Sys2Proof.Machine.execHmin u s
  | .hdot u => Sys2Proof.Machine.execHdot u s
  | .lld u => Sys2Proof.Machine.execLld u s
  | .lst u => Sys2Proof.Machine.execLst u s
  | .lgath u => Sys2Proof.Machine.execLgath u s
  | .lscat u => Sys2Proof.Machine.execLscat u s
  | .pld u => Sys2Proof.Machine.execPld u s
  | .pst u => Sys2Proof.Machine.execPst u s
  | .mld u => Sys2Proof.Machine.execMld u s
  | .mst u => Sys2Proof.Machine.execMst u s
  | .gath u => Sys2Proof.Machine.execGath u s
  | .scat u => Sys2Proof.Machine.execScat u s
  | .scadd u => Sys2Proof.Machine.execScadd u s
  | .skick u => Sys2Proof.Machine.execSkick u s
  | .psetn u => Sys2Proof.Machine.execPsetn u s
  | .wait u => Sys2Proof.Machine.execWait u s
  | .signal u => Sys2Proof.Machine.execSignal u s
  | .bar u => Sys2Proof.Machine.execBar u s
  | .draw u => Sys2Proof.Machine.execDraw u s
  | .vdraw16 u => Sys2Proof.Machine.execVdraw16 u s
  | .vdraw32 u => Sys2Proof.Machine.execVdraw32 u s
  | .dmask u => Sys2Proof.Machine.execDmask u s
  | .br u => Sys2Proof.Machine.execBr u s
  | .brp u => Sys2Proof.Machine.execBrp u s
  | .loop u => Sys2Proof.Machine.execLoop u s
  | .halt u => Sys2Proof.Machine.execHalt u s
  | .trap u => Sys2Proof.Machine.execTrap u s
  | .launch c => Sys2Proof.Machine.execLaunch c s
  | .launchComplete c index => Sys2Proof.Machine.execLaunchComplete c index s
  | .tokenSignal index => Sys2Proof.Machine.execTokenSignal index s
  | .repeatBegin l => Sys2Proof.Machine.execRepeatBegin l s
  | .repeatEnd l => Sys2Proof.Machine.execRepeatEnd l s
  | .load c => Sys2Proof.Machine.execLoad c s
  | .passF c => Sys2Proof.Machine.execPassF c s
  | .passD c => Sys2Proof.Machine.execPassD c s
  | .passW c => Sys2Proof.Machine.execPassW c s
  | .edgeDrain c => Sys2Proof.Machine.execEdgeDrain c s
  | .edgePreload c => Sys2Proof.Machine.execEdgePreload c s
  | .siteDrain c => Sys2Proof.Machine.execSiteDrain c s
  | .sitePreload c => Sys2Proof.Machine.execSitePreload c s
  | .fillerPour c => Sys2Proof.Machine.execFillerPour c s
  | .pourEnd c => Sys2Proof.Machine.execPourEnd c s
  | .prologueEnd c => Sys2Proof.Machine.execPrologueEnd c s
  | .vload m => Sys2Proof.Machine.execVload m s
  | .runN m => Sys2Proof.Machine.execRunN m s
  | .runT m => Sys2Proof.Machine.execRunT m s
  | .accDrain m => Sys2Proof.Machine.execAccDrain m s
  | .accPreload m => Sys2Proof.Machine.execAccPreload m s
  | .runDesc e => Sys2Proof.Machine.execRunDesc e s
  | .kickedRun e => Sys2Proof.Machine.execKickedRun e s
  | .descRunComplete e index => Sys2Proof.Machine.execDescRunComplete e index s
  | .requestAccept h => Sys2Proof.Machine.execRequestAccept h s
  | .sorterServe h b hits => Sys2Proof.Machine.execSorterServe h b hits s
  | .memoryResponse h index => Sys2Proof.Machine.execMemoryResponse h index s
  | .fettleRead h hits => Sys2Proof.Machine.execFettleRead h hits s
  | .fence h hits => Sys2Proof.Machine.execFence h hits s
  | .plateClear h => Sys2Proof.Machine.execPlateClear h s
  | .tier h => Sys2Proof.Machine.execTier h s
  | .treeNode h => Sys2Proof.Machine.execTreeNode h s
  | .nodeElement h index => Sys2Proof.Machine.execNodeElement h index s
  | .backupChunk h index slot backup => Sys2Proof.Machine.execBackupChunk h index slot backup s
  | .update h => Sys2Proof.Machine.execUpdate h s
  | .updateElement h index => Sys2Proof.Machine.execUpdateElement h index s
  | .normDelivery h => Sys2Proof.Machine.execNormDelivery h s
  | .ladle h => Sys2Proof.Machine.execLadle h s
  | .portSend p => Sys2Proof.Machine.execPortSend p s
  | .portRecv p => Sys2Proof.Machine.execPortRecv p s
  | .ckptSend h => Sys2Proof.Machine.execCkptSend h s
  | .digest m h b => Sys2Proof.Machine.execDigest m h b s
  | .stepOpen => Sys2Proof.Machine.execStepOpen s
  | .stepDeadline => Sys2Proof.Machine.execStepDeadline s
  | .voteSend => Sys2Proof.Machine.execVoteSend s
  | .vote m b => Sys2Proof.Machine.execVote m b s
  | .outcome m b => Sys2Proof.Machine.execOutcome m b s
  | .relabelCopyDone h => Sys2Proof.Machine.execRelabelCopyDone h s
  | .phase m b => Sys2Proof.Machine.execPhase m b s
  | .reshardPhaseDone rank b => Sys2Proof.Machine.execReshardPhaseDone rank b s
  | .faultReport index => Sys2Proof.Machine.execFaultReport index s
  | .faultNotice m b => Sys2Proof.Machine.execFaultNotice m b s
  | .abortDeferTimeout => Sys2Proof.Machine.execAbortDeferTimeout s
  | .localAbortDone => Sys2Proof.Machine.execLocalAbortDone s
  | .restartPrepared groups => Sys2Proof.Machine.execRestartPrepared groups s
  | .ready m b => Sys2Proof.Machine.execReady m b s
  | .readyRetryTimeout => Sys2Proof.Machine.execReadyRetryTimeout s
  | .leaderWindowExpiry => Sys2Proof.Machine.execLeaderWindowExpiry s
  | .startWindowExpiry => Sys2Proof.Machine.execStartWindowExpiry s
  | .subst m b => Sys2Proof.Machine.execSubst m b s
  | .go m b => Sys2Proof.Machine.execGo m b s
  | .restoreDone => Sys2Proof.Machine.execRestoreDone s
  | .done m gen => Sys2Proof.Machine.execDone m gen s
  | .openJob m => Sys2Proof.Machine.execOpenJob m s
  | .stall m attempt => Sys2Proof.Machine.execStall m attempt s
  | .laneLock p lanes skewNs => Sys2Proof.Machine.execLaneLock p lanes skewNs s
  | .ident p b => Sys2Proof.Machine.execIdent p b s
  | .measure p b => Sys2Proof.Machine.execMeasure p b s
  | .linkupTimeout p => Sys2Proof.Machine.execLinkupTimeout p s
  | .laneLoss p lane linkLost => Sys2Proof.Machine.execLaneLoss p lane linkLost s
  | .sleep p rank farPort epoch => Sys2Proof.Machine.execSleep p rank farPort epoch s
  | .sleepRetryTimer p => Sys2Proof.Machine.execSleepRetryTimer p s
  | .dataFlit p lane f => Sys2Proof.Machine.execDataFlit p lane f s
  | .idle p f => Sys2Proof.Machine.execIdle p f s
  | .linkReplay p prio q => Sys2Proof.Machine.execLinkReplay p prio q s
  | .replayGapTimeout p prio => Sys2Proof.Machine.execReplayGapTimeout p prio s
  | .linkAckTimeout p prio => Sys2Proof.Machine.execLinkAckTimeout p prio s
  | .credit p stream delivered => Sys2Proof.Machine.execCredit p stream delivered s
  | .creditReportTimer p stream => Sys2Proof.Machine.execCreditReportTimer p stream s
  | .refuse p stream offset => Sys2Proof.Machine.execRefuse p stream offset s
  | .linkResume p stream offset => Sys2Proof.Machine.execLinkResume p stream offset s
  | .timeSyncTimer => Sys2Proof.Machine.execTimeSyncTimer s
  | .timeSync m t1 => Sys2Proof.Machine.execTimeSync m t1 s
  | .timeReply m t2 t3 => Sys2Proof.Machine.execTimeReply m t2 t3 s
  | .sync m => Sys2Proof.Machine.execSync m s
  | .followUp m => Sys2Proof.Machine.execFollowUp m s
  | .delayResp m => Sys2Proof.Machine.execDelayResp m s
  | .announce m b => Sys2Proof.Machine.execAnnounce m b s
  | .timeSourceLoss => Sys2Proof.Machine.execTimeSourceLoss s
  | .ppsEdge highFor1us => Sys2Proof.Machine.execPpsEdge highFor1us s
  | .ppsLossTimeout => Sys2Proof.Machine.execPpsLossTimeout s
  | .ppsOutSecond => Sys2Proof.Machine.execPpsOutSecond s
  | .ppsOutPulseEnd => Sys2Proof.Machine.execPpsOutPulseEnd s
  | .d2dParityError die h chan groups => Sys2Proof.Machine.execD2dParityError die h chan groups s
  | .d2dAckTimeout die h chan group => Sys2Proof.Machine.execD2dAckTimeout die h chan group s
  | .spareGroupError h chan rx group => Sys2Proof.Machine.execSpareGroupError h chan rx group s
  | .ver h chan b => Sys2Proof.Machine.execVer h chan b s
  | .budgetInterval pinW fixedW => Sys2Proof.Machine.execBudgetInterval pinW fixedW s
  | .budget index => Sys2Proof.Machine.execBudget index s
  | .report index => Sys2Proof.Machine.execReport index s
  | .quenchCuff d => Sys2Proof.Machine.execQuenchCuff d s
  | .railControlTick d power tj => Sys2Proof.Machine.execRailControlTick d power tj s
  | .budgetStaleTimeout d => Sys2Proof.Machine.execBudgetStaleTimeout d s
  | .inputSample mv ma => Sys2Proof.Machine.execInputSample mv ma s
  | .rideThroughExpiry => Sys2Proof.Machine.execRideThroughExpiry s
  | .overvoltageExpiry => Sys2Proof.Machine.execOvervoltageExpiry s
  | .lugOvercurrent lug => Sys2Proof.Machine.execLugOvercurrent lug s
  | .junctionTrip die tj => Sys2Proof.Machine.execJunctionTrip die tj s
  | .quenchHubsDone => Sys2Proof.Machine.execQuenchHubsDone s
  | .quenchRecovery => Sys2Proof.Machine.execQuenchRecovery s
  | .thermAlert low => Sys2Proof.Machine.execThermAlert low s
  | .pwrOkRise => Sys2Proof.Machine.execPwrOkRise s
  | .pwrOkFall => Sys2Proof.Machine.execPwrOkFall s
  | .inputChargeDone => Sys2Proof.Machine.execInputChargeDone s
  | .rstNAssert => Sys2Proof.Machine.execRstNAssert s
  | .rstNRelease b => Sys2Proof.Machine.execRstNRelease b s
  | .selfTestDone r => Sys2Proof.Machine.execSelfTestDone r s
  | .memoryTrainDone r => Sys2Proof.Machine.execMemoryTrainDone r s
  | .mouldLoad => Sys2Proof.Machine.execMouldLoad s
  | .startupReadySend => Sys2Proof.Machine.execStartupReadySend s
  | .illegalOpcode u => Sys2Proof.Machine.execIllegalOpcode u s
  | .badOpcode opcode f => Sys2Proof.Machine.execBadOpcode opcode f s
  | .eventRecord index => Sys2Proof.Machine.execEventRecord index s

end Sys2Proof.Machine
end

