-- ==== Sys2Proof/Safety.lean ====
section
/-! DEFINITION. What counts as a sound state and a sound step, in the terms the statements use. -/
namespace Sys2Proof.Machine

/-- The numbers of an engine's runs lie below the number its next run takes. -/
def Engine.numbered (e : Engine) : Prop := ∀ r ∈ e.runs, r.id < e.started

/-- A state that the package's own rules allow: memory and flash in canonical form (an unlisted byte reads 0, R232, and 0xFF, R499), four
revoke fuses (R485), nothing stored in a plate whose stored valid bit is clear (R232), and the runs of an engine numbered as they
started. -/
structure State.Sound (s : State) : Prop where
  memory : Memory.wf s.mem = true
  flash : tcanon 0xFF s.flash = true
  fuses : s.revoked.length = 4
  plates : ∀ a, s.plateStored a = false →
    readByte s.mem a = 0 ∧ tget [] s.memErr (sectorOf a) = [] ∧ tget false s.poison (sectorOf a) = false
  engines : ∀ p e, ((s.tile p).engine e).numbered

/-- What no command of the block may do, said of the states before and after: it adds no command to the queue and takes none from
it, writes no fuse key slot (R485: at manufacture), and makes no blown revoke fuse whole again (R504). -/
structure State.Follows (s t : State) : Prop where
  queue : t.pending = s.pending
  slots : t.keySlots = s.keySlots
  fuses : ∀ n, lget false s.revoked n = true → lget false t.revoked n = true
  width : t.revoked.length = s.revoked.length

/-- A step answers a next state. -/
def State.goesOn (s : State) : Prop := ∃ t, step s = .next t

end Sys2Proof.Machine

/-! The words that the statements share. -/
namespace Sys2Proof.Machine.Claims


/-! ### Thread instructions -/

/-- What the context of an issue command runs, once its next word has been fetched after the upsets that struck, has decoded, is the
opcode named, passes every check of its encoding (R172 to R176) and names no register that awaits memory (R141): the
environment of that instruction. -/
def issued (op : Nat) (use : Word → Use) (i : Issue) (s : State) : Option TEnv :=
  let s := s.updCluster i.tile i.cluster fun c => c.strike i.upsets
  match s.fetch i.tile i.cluster i.ctx with
  | none => none
  | some (e, d) =>
    if d.bad || e.w.opc != op || encodingCauses (use e.w) e.w != [] || (namedRegs (use e.w) e.w).any (· ∈ e.x.pend) then none
    else some { e with s := if d.fixed then s.tileDross (s.phys i.tile) 0x06 1 else s }

/-- The context of an issue command. -/
def ctxAt (s : State) (i : Issue) : Ctx := (s.cluster i.tile i.cluster).ctx i.ctx

/-- Lane l of vector register q. -/
def laneAt (x : Ctx) (q l : Nat) : W32 := tget 0 x.v (16 * q + l)

/-- Whether an instruction without a jump falls past the last index of the instruction store (R201). -/
def falls (e : TEnv) : Prop := e.x.pc.toNat = 16383

/-- What an instruction that only computes in its context's registers leaves alone: every other context, both stores, the array,
every other cluster and tile, tokens, risers and lists, hubs, memory, flash, and the crown; falling past the last index adds
the trap's marks to the tile and its report to the crown, and nothing more (R167, R201). -/
def onlyContext (i : Issue) (e : TEnv) (t : State) : Prop :=
  let s := e.s
  let p := s.phys i.tile
  (∀ c, c ≠ i.ctx.val → (t.cluster i.tile i.cluster).ctx c = (s.cluster i.tile i.cluster).ctx c) ∧
  t.cluster i.tile i.cluster = { s.cluster i.tile i.cluster with
    ctxs := (t.cluster i.tile i.cluster).ctxs, launches := (t.cluster i.tile i.cluster).launches } ∧
  (∀ k, k ≠ i.cluster.val → t.cluster i.tile k = s.cluster i.tile k) ∧
  (∀ q, q ≠ p → t.tile q = s.tile q) ∧
  t.tile p = { s.tile p with clusters := (t.tile p).clusters, dross := (t.tile p).dross, traps := (t.tile p).traps
                             thrFlags := (t.tile p).thrFlags } ∧
  (¬ falls e → (t.tile p).dross = (s.tile p).dross ∧ (t.tile p).traps = (s.tile p).traps ∧
    (t.tile p).thrFlags = (s.tile p).thrFlags ∧ t.crown = s.crown) ∧
  t.crown = { s.crown with reports := t.crown.reports } ∧
  t = { s with tiles := t.tiles, crown := t.crown }

/-- The context goes on at the next index, or stops where it falls past the last (R201); one more instruction has completed, the count
saturating (R166). -/
def goesOn (i : Issue) (e : TEnv) (t : State) : Prop :=
  (ctxAt t i).pc = (if e.x.pc.toNat = 16383 then e.x.pc else e.x.pc + 1) ∧
  (ctxAt t i).insns = min 0xFFFFFFFF (e.x.insns + 1)

/-- The active lanes of the destination vector hold a function of the lane, every other lane of every vector what it held (R133). -/
def vectorIs (i : Issue) (e : TEnv) (t : State) (f : Nat → W32) : Prop :=
  ∀ q l, l < 16 → laneAt (ctxAt t i) q l = if q = e.w.dst ∧ e.active l = true then f l else laneAt e.x q l

/-- Scalars, predicates and the draw counter are as they were. -/
def keepsSPD (i : Issue) (e : TEnv) (t : State) : Prop :=
  (ctxAt t i).s = e.x.s ∧ (ctxAt t i).p = e.x.p ∧ (ctxAt t i).draws = e.x.draws

/-- The integer instructions on lanes: opcode, command, and the function of R181. -/
def intRows : List (Nat × (Issue → Instr) × (W32 → W32 → W32)) :=
  [(0x20, .iadd, fun a b => a + b), (0x21, .isub, fun a b => a - b), (0x22, .imul, fun a b => a * b),
   (0x23, .iand, fun a b => a &&& b), (0x24, .ior, fun a b => a ||| b), (0x25, .ixor, fun a b => a ^^^ b),
   (0x26, .ishl, fun a b => a <<< (b.toNat % 32)), (0x27, .ishr, fun a b => a >>> (b.toNat % 32)),
   (0x28, .isar, fun a b => a.sshiftRight (b.toNat % 32)), (0x29, .imin, fun a b => if b.toInt < a.toInt then b else a),
   (0x2A, .imax, fun a b => if a.toInt < b.toInt then b else a)]

/-- A step of a derivative: the product with what has been formed, its conditions added (R163). -/
def thenMul (c : Rounded) (a b : Num) : Rounded :=
  { bits := (fpMul .f32 a b).bits, inv := c.inv || (fpMul .f32 a b).inv, ovf := c.ovf || (fpMul .f32 a b).ovf }

/-- A step of a derivative: a difference, its conditions added (R163). -/
def thenSub (c : Rounded) (a b : Num) : Rounded :=
  { bits := (fpAdd .f32 a b.flip).bits, inv := c.inv || (fpAdd .f32 a b.flip).inv, ovf := c.ovf || (fpAdd .f32 a b.flip).ovf }

/-- A derivative's value: NaN where y or dy is NaN (R163); its steps raise what they raise, on operands that are no NaN (R178, R189). -/
def derivative (e : TEnv) (l : Nat) (r : Rounded) : Rounded :=
  { r with bits := if e.num 0 l = .nan ∨ e.num 1 l = .nan then 0x7FC00000 else r.bits }

/-- The floating-point instructions on lanes, special functions, derivatives and the conversion to nearest even included: opcode, field
use, command, and the rounded value of a lane (R161 to R163, R179, R184 to R189). -/
def floatRows : List (Nat × (Word → Use) × (Issue → Instr) × (TEnv → Nat → Rounded)) :=
  [(0x10, fun _ => useFp2, .vadd, fun e l => fpAdd e.dstFmt (e.num 0 l) (e.num 1 l)),
   (0x11, fun _ => useFp2, .vsub, fun e l => fpAdd e.dstFmt (e.num 0 l) (e.num 1 l).flip),
   (0x12, fun _ => useFp2, .vmul, fun e l => fpMul e.dstFmt (e.num 0 l) (e.num 1 l)),
   (0x13, fun _ => useFp3, .vfma, fun e l => fpFma e.dstFmt (e.num 0 l) (e.num 1 l) (e.num 2 l)),
   (0x14, fun _ => useFp2, .vmin, fun e l => roundNear e.dstFmt (numMin (e.num 0 l) (e.num 1 l))),
   (0x15, fun _ => useFp2, .vmax, fun e l => roundNear e.dstFmt (numMax (e.num 0 l) (e.num 1 l))),
   (0x16, fun _ => useFp1, .vabs, fun e l => roundNear e.dstFmt (e.num 0 l).abs),
   (0x17, fun _ => useFp1, .vneg, fun e l => roundNear e.dstFmt (e.num 0 l).flip),
   (0x50, useCvt, .cvt, fun e l => e.cvtLane .rne l),
   (0x60, fun _ => useSfu, .exp2, fun e l => sfuExp2 (e.num 0 l)), (0x61, fun _ => useSfu, .log2, fun e l => sfuLog2 (e.num 0 l)),
   (0x62, fun _ => useSfu, .rcp, fun e l => sfuRcp (e.num 0 l)), (0x63, fun _ => useSfu, .rsq, fun e l => sfuRsq (e.num 0 l)),
   (0x64, fun _ => useSfu, .tanh, fun e l => sfuTanh (e.num 0 l)), (0x65, fun _ => useSfu, .sigm, fun e l => sfuSigm (e.num 0 l)),
   (0x66, fun _ => useSfu, .erf, fun e l => sfuErf (e.num 0 l)),
   (0x68, fun _ => useDer2, .drelu, fun e l => derivative e l
      (if 0 < (e.num 0 l).cmp Num.zero then roundNear .f32 (e.num 1 l) else { bits := 0 })),
   (0x69, fun _ => useDer3, .dlrelu, fun e l => derivative e l
      (if 0 < (e.num 0 l).cmp Num.zero then roundNear .f32 (e.num 1 l) else thenMul {} (e.num 2 l) (e.num 1 l))),
   (0x6A, fun _ => useDer2, .dsigm, fun e l =>
      let t := thenSub {} (.fin false 1 0) (e.num 0 l)
      let u := thenMul t (e.num 0 l) (decode .f32 t.bits)
      derivative e l (thenMul u (e.num 1 l) (decode .f32 u.bits))),
   (0x6B, fun _ => useDer2, .dtanh, fun e l =>
      let t := thenMul {} (e.num 0 l) (e.num 0 l)
      let u := thenSub t (.fin false 1 0) (decode .f32 t.bits)
      derivative e l (thenMul u (e.num 1 l) (decode .f32 u.bits))),
   (0x6C, fun _ => useDer2, .dexp, fun e l => derivative e l (thenMul {} (e.num 1 l) (e.num 0 l))),
   (0x6D, fun _ => useDer3, .dsmax, fun e l =>
      let d := thenSub {} (e.num 1 l) (e.num 2 l)
      derivative e l (thenMul d (e.num 0 l) (decode .f32 d.bits)))]

/-- What the launch of a context collects of an instruction's conditions (R165, R166). -/
def notes (i : Issue) (e : TEnv) (t : State) (inv ovf : Bool) : Prop :=
  (t.cluster i.tile i.cluster).launches =
    noteLaunch (e.s.cluster i.tile i.cluster).launches e.x.launch i.ctx e.x.insns inv ovf

/-- Whether an active lane has a condition. -/
def anyLane (e : TEnv) (f : Nat → Bool) : Bool := (List.range 16).any fun l => e.active l && f l

/-- The scalar instructions of two operands: opcode, command, function (R182). -/
def scalarRows : List (Nat × (Issue → Instr) × (W64 → W64 → W64)) :=
  [(0x30, .sadd, fun a b => a + b), (0x31, .ssub, fun a b => a - b), (0x32, .smul, fun a b => a * b),
   (0x33, .sand, fun a b => a &&& b), (0x34, .sor, fun a b => a ||| b), (0x35, .sxor, fun a b => a ^^^ b),
   (0x36, .sshl, fun a b => a <<< (b.toNat % 64)), (0x37, .sshr, fun a b => a >>> (b.toNat % 64)),
   (0x38, .ssar, fun a b => a.sshiftRight (b.toNat % 64))]

/-- The second operand of a scalar instruction (R182): src2, or n bits of MOD sign-extended. -/
def operandB (e : TEnv) (n : Nat) : W64 :=
  if e.w.fmt = 1 then (BitVec.ofNat n e.w.mod).signExtend 64 else e.scalar e.w.s2

/-- A scalar register holds a value, every other scalar what it held; vectors, predicates and the draw counter are as they were. -/
def scalarIs (i : Issue) (e : TEnv) (t : State) (v : W64) : Prop :=
  (∀ r, tget 0 (ctxAt t i).s r = if r = e.w.dst - 32 then v else tget 0 e.x.s r) ∧
  (ctxAt t i).v = e.x.v ∧ (ctxAt t i).p = e.x.p ∧ (ctxAt t i).draws = e.x.draws

/-- A predicate register holds a value, or nothing is written where it is p0 (R133); every other predicate, the vectors, the scalars
and the draw counter are as they were. -/
def predicateIs (i : Issue) (e : TEnv) (t : State) (v : W16) : Prop :=
  readPred (ctxAt t i) 48 = 0xFFFF ∧
  (∀ c, 48 < c → c < 56 → readPred (ctxAt t i) c = if c = e.w.dst then v else readPred e.x c) ∧
  (ctxAt t i).v = e.x.v ∧ (ctxAt t i).s = e.x.s ∧ (ctxAt t i).draws = e.x.draws

/-- A predicate with its active lanes' bits from a function and the others from the predicate before (R133, R179). -/
def lanesOver (e : TEnv) (old : W16) (f : Nat → Bool) (v : W16) : Prop :=
  ∀ l, l < 16 → v.getLsbD l = if e.active l then f l else old.getLsbD l

/-- The fixed tree of R190: a list of one is its element; a longer one combines the trees of its first m and its other elements, m the
largest power of two below its length. -/
inductive Tree {α : Type} (f : α → α → α) : List α → α → Prop where
  | leaf (a : α) : Tree f [a] a
  | node (l : List α) (k : Nat) (x y : α) : 2 ^ k < l.length → l.length ≤ 2 ^ (k + 1) → Tree f (l.take (2 ^ k)) x →
      Tree f (l.drop (2 ^ k)) y → Tree f l (f x y)

/-- The list of a horizontal reduction (R190): the lanes of n registers from a source on, an inactive lane as the identity. -/
def reduceList (e : TEnv) (f : Nat → Nat → Rounded) (ident : Nat) : List Rounded :=
  (List.range (16 * e.w.hregs)).map fun j => if e.active (j % 16) then f (j / 16) (j % 16) else { bits := ident }

/-- A lane of the first source's registers, as it stands. -/
def asItStands (e : TEnv) (r l : Nat) : Rounded := { bits := (laneAt e.x (e.w.s1 + r) l).toNat }

/-- The horizontal reductions: opcode, whether it takes two sources, command, combining step and list (R190 to R192). -/
def horizontalRows : List (Nat × Bool × (Issue → Instr) × (TEnv → Rounded → Rounded → Rounded) × (TEnv → List Rounded)) :=
  [(0x70, false, .hsum, fun e => if e.w.fmt = 3 then combineInt fun a b => (a + b) % 2 ^ 32 else combine (fpAdd .f32),
      fun e => reduceList e (asItStands e) (if e.w.fmt = 3 then 0 else 0x80000000)),
   (0x71, false, .hmax, fun e => if e.w.fmt = 3 then combineInt fun a b => if sext 32 a < sext 32 b then b else a
        else combine fun a b => roundNear .f32 (numMax a b),
      fun e => reduceList e (asItStands e) (if e.w.fmt = 3 then 0x80000000 else 0xFF800000)),
   (0x72, false, .hmin, fun e => if e.w.fmt = 3 then combineInt fun a b => if sext 32 b < sext 32 a then b else a
        else combine fun a b => roundNear .f32 (numMin a b),
      fun e => reduceList e (asItStands e) (if e.w.fmt = 3 then 0x7FFFFFFF else 0x7F800000)),
   (0x73, true, .hdot, fun _ => combine (fpAdd .f32),
      fun e => reduceList e (fun r l => fpMul .f32 (f32 (laneAt e.x (e.w.s1 + r) l)) (f32 (laneAt e.x (e.w.s2 + r) l))) 0x80000000)]

/-- The draw counter has advanced by n (R160, R200). -/
def drew (i : Issue) (e : TEnv) (t : State) (n : Nat) : Prop := (ctxAt t i).draws = e.x.draws + BitVec.ofNat 32 n

/-- A byte of a local store as a read delivers it (R237, R242). -/
def lsByteAt (c : Cluster) (a : Nat) : Byte := lget 0 (leBytes 8 (lsDecode c (a / 8)).1) (a % 8)

/-- Bytes after one write of values under bit masks (R193, R243). -/
def stored (f : Nat → Byte) (w : Nat × List (Byte × Byte)) (a : Nat) : Byte :=
  match (if w.1 ≤ a then w.2[a - w.1]? else none) with
  | some (v, m) => (v &&& m) ||| (f a &&& ~~~m)
  | none => f a

/-- A write touches no word in part that is uncorrectable (R243, R245). -/
def writable (c : Cluster) (w : Nat × List (Byte × Byte)) : Prop :=
  ∀ x ∈ lsWords w.1 w.2.length, (lsDecode c x).2.bad = true →
    (lsSlice w.1 w.2 x).all (fun b => b.2 == 0) = true ∨ (lsSlice w.1 w.2 x).all (fun b => b.2 == 0xFF) = true

/-- The local-store stores: opcode, field use, command, size and alignment or lanes, and the writes in order (R193, R195). -/
def storeRows : List (Nat × (Word → Use) × (Issue → Instr) × (TEnv → List Nat) × (TEnv → List (Nat × List (Byte × Byte)))) :=
  [(0x81, fun _ => { s1 := .scalar, s2 := .lanes, fmts := lsFmts, mod := 0xFFFFFF }, .lst,
      fun e => lsCauses e.lsAddr (lsBytes e.fmt) (lsAlign e.fmt),
      fun e => [(e.lsAddr, e.packLanes e.fmt.width fun l => (e.lane e.w.s2 l).toNat)]),
   (0x83, fun _ => { s1 := .scalar, s2 := .lanes, s3 := .lanes, fmts := wideFmts }, .lscat, fun e => e.idxLsCauses,
      fun e => ((List.range 16).filter e.active).map fun l =>
        (e.idxAddr l, (leBytes (elemSize e.w.fmt) (e.lane e.w.s3 l).toNat).map fun b => (b, 0xFF))),
   (0x85, fun _ => { s1 := .scalar, s2 := .pred, mod := 0xFFFFFF, pred := false }, .pst, fun e => lsCauses e.lsAddr 2 2,
      fun e => [(e.lsAddr, (leBytes 2 (readPred e.x e.w.s2).toNat).map fun b => (b, 0xFF))])]

/-- The registers of the context are as they were. -/
def keepsAll (i : Issue) (e : TEnv) (t : State) : Prop := (ctxAt t i).v = e.x.v ∧ keepsSPD i e t

/-- The ingress queue that a request of a physical tile joins: the owner of its address, if that is memory, and there the tile channel, or
the hub-hub channel that the loaded route comes in by (R204, R217). -/
def queueOf (s : State) (p a : Nat) : Option (Nat × Nat) := (addrHome a).map fun x => (x.1, s.ingressFrom (p / 7) x.1 (p % 7))

/-- The requests of an instruction, each appended to its queue in order, and nothing else of the hubs changed (R144, R204). -/
def queued (e : TEnv) (t : State) (rs : List Req) : Prop :=
  (∀ h q, tget [] (t.hub h).ingress q =
    tget [] (e.s.hub h).ingress q ++ rs.filter fun r => decide (queueOf e.s (e.s.phys e.t) r.addr = some (h, q))) ∧
  ∀ h, t.hub h = { e.s.hub h with ingress := (t.hub h).ingress }

/-- The memory instructions: opcode, field use, command, causes, requests, the registers they leave waiting, and whether they write
(R144, R155 to R157, R194). -/
def memoryRows : List (Nat × (Word → Use) × (Issue → Instr) × (TEnv → List Nat) × (TEnv → List Req) × (TEnv → List Nat) × Bool) :=
  [(0x90, fun w => { dst := .vec, s1 := .scalar, fmts := [0, 3], mod := 0xFFFFFF, n := w.mregs }, .mld,
      fun e => e.memCauses e.memAddr (64 * e.w.mregs) (64 * e.w.mregs),
      fun e => [{ agent := .thread e.t e.k e.c e.x.launch e.x.pc (some (.regs e.w.dst e.w.mregs e.mask))
                  kind := .read (64 * e.w.mregs), addr := e.memAddr }],
      fun e => (List.range e.w.mregs).map (e.w.dst + ·), false),
   (0x91, fun w => { s1 := .scalar, s2 := .vec, fmts := [0, 3], mod := 0xFFFFFF, n := w.mregs }, .mst,
      fun e => e.memCauses e.memAddr (64 * e.w.mregs) (64 * e.w.mregs),
      fun e => [{ agent := .thread e.t e.k e.c e.x.launch e.x.pc none, addr := e.memAddr
                  kind := .write ((List.range (16 * e.w.mregs)).flatMap fun j =>
                    (leBytes 4 (tget 0 e.x.v (16 * e.w.s2 + j)).toNat).map fun b => if e.active (j % 16) then some b else none) }],
      fun _ => [], true),
   (0x92, fun _ => { dst := .vec, s1 := .scalar, s2 := .vec, fmts := wideFmts }, .gath, fun e => e.idxMemCauses,
      fun e => ((List.range 16).filter e.active).map fun l =>
        { agent := .thread e.t e.k e.c e.x.launch e.x.pc (some (.lane e.w.dst l (elemSize e.w.fmt)))
          kind := .read (elemSize e.w.fmt), addr := e.idxAddr l },
      fun e => ((List.range 16).filter e.active).map fun _ => e.w.dst, false),
   (0x93, fun _ => { s1 := .scalar, s2 := .vec, s3 := .lanes, fmts := wideFmts }, .scat, fun e => e.idxMemCauses,
      fun e => ((List.range 16).filter e.active).map fun l =>
        { agent := .thread e.t e.k e.c e.x.launch e.x.pc none, addr := e.idxAddr l
          kind := .write ((leBytes (elemSize e.w.fmt) (e.lane e.w.s3 l).toNat).map some) },
      fun _ => [], true),
   (0x94, fun _ => { s1 := .scalar, s2 := .vec, s3 := .lanes, fmts := [0, 3] }, .scadd, fun e => e.idxMemCauses,
      fun e => ((List.range 16).filter e.active).zipIdx.map fun l =>
        { agent := .thread e.t e.k e.c e.x.launch e.x.pc none, addr := e.idxAddr l.1
          kind := .add (e.w.fmt == 3) (e.lane e.w.s3 l.1) e.x.epoch (e.t * 1024 + e.k * 256 + e.c) (e.x.seqNo.toNat + l.2) },
      fun _ => [], true)]

/-- An issue that may not go on yet leaves the package as it was but for what its fetch counted. -/
def waits (e : TEnv) (t : State) : Prop := t = e.s

/-- What a trap leaves (R167, R169): the context stopped and its registers as they were; the cluster's trap register holding the trap
unless it held an earlier one; the TRAP bit; one more trap counted; and the trap record on its way, as a TRAP fault. -/
def trapped (i : Issue) (s : State) (cause : Nat) (t : State) : Prop :=
  let x := (s.cluster i.tile i.cluster).ctx i.ctx
  let p := s.phys i.tile
  ctxAt t i = { x with stopped := true } ∧
  tget {} (t.tile p).traps i.cluster = (if (tget {} (s.tile p).traps i.cluster).valid then tget {} (s.tile p).traps i.cluster else
    { valid := true, cause := BitVec.ofNat 8 cause, pc := x.pc, ctx := BitVec.ofNat 8 i.ctx, stepLo := BitVec.ofNat 32 s.stepNo }) ∧
  (∀ k, k ≠ i.cluster.val → tget {} (t.tile p).traps k = tget {} (s.tile p).traps k) ∧
  (t.tile p).thrFlags = (s.tile p).thrFlags ||| BitVec.ofNat 16 (2 ^ (4 * i.cluster.val + 2)) ∧
  (∀ c, tget 0 (t.tile p).dross c = if c = 0x0B then min 0xFFFF (tget 0 (s.tile p).dross c + 1) else tget 0 (s.tile p).dross c) ∧
  t.crown = { s.crown with reports := s.crown.reports ++ [{
    die := i.tile, code := 0x01, type := some 0x04
    body := body [(64, s.stepNo), (6, i.tile), (6, p), (2, i.cluster), (8, cause), (14, x.pc.toNat), (8, i.ctx)] }] } ∧
  (∀ c, c ≠ i.ctx.val → (t.cluster i.tile i.cluster).ctx c = (s.cluster i.tile i.cluster).ctx c) ∧
  (∀ q, q ≠ p → t.tile q = s.tile q) ∧ t = { s with tiles := t.tiles, crown := t.crown }

/-- The state as a fetch sees it, after the upsets that struck. -/
def struckAt (i : Issue) (s : State) : State := s.updCluster i.tile i.cluster fun c => c.strike i.upsets

/-- The state with a corrected fetch counted (R250). -/
def counted (i : Issue) (s : State) (fixed : Bool) : State :=
  if fixed then (struckAt i s).tileDross ((struckAt i s).phys i.tile) 0x06 1 else struckAt i s

/-- Every thread instruction: opcode, field use, command. -/
def threadRows : List (Nat × (Word → Use) × (Issue → Instr)) :=
  intRows.map (fun r => (r.1, (fun _ => useInt), r.2.1)) ++ floatRows.map (fun r => (r.1, r.2.1, r.2.2.1)) ++
  scalarRows.map (fun r => (r.1, useScalar, r.2.1)) ++ horizontalRows.map (fun r => (r.1, useH r.2.1, r.2.2.1)) ++
  storeRows.map (fun r => (r.1, r.2.1, r.2.2.1)) ++ memoryRows.map (fun r => (r.1, r.2.1, r.2.2.1)) ++
  [(0x18, fun w => { dst := .pred, s1 := .lanes, s2 := .lanes, mod := if bits w.mod 23 20 ≤ 5 then 0xF0000F else 0xF }, .vcmp),
   (0x19, fun _ => { dst := .vec, s1 := .lanes, s2 := .lanes, s3 := .pred }, .vsel),
   (0x1A, fun _ => { dst := .vec, s1 := .lanes }, .vmov),
   (0x2B, fun w => { dst := .pred, s1 := .lanes, s2 := .lanes, mod := 0xF00000
                     fmts := if kindOk (bits w.mod 23 20) then [3] else [] }, .icmp),
   (0x2C, fun _ => { dst := .vec, s1 := .lanes, fmts := [3] }, .vlane),
   (0x39, fun _ => { dst := .sreg, fmts := [1], mod := 0xFFFFFF, pred := false }, .smovi),
   (0x3A, fun _ => { dst := .sreg, fmts := [1], mod := 0xFFFFFF, pred := false }, .slui), (0x3B, useScmp, .scmp),
   (0x40, fun _ => usePred2, .pand), (0x41, fun _ => usePred2, .por), (0x42, fun _ => usePred2, .pxor),
   (0x43, fun _ => { dst := .pred, s1 := .pred, pred := false }, .pnot), (0x44, fun _ => { dst := .pred, mod := 0xFFFF, pred := false }, .pset),
   (0x45, fun _ => { dst := .pred, s1 := .pred, pred := false }, .pmov), (0x52, useCvt, .cvtsr),
   (0x51, fun w => { dst := .sreg, s1 := .vec, mod := 0x80003, n := 2
                     fmts := if ((Fmt.ofCode w.fmt).getD .f32).isMx then [w.fmt] else [] }, .mxscale),
   (0x80, fun _ => { dst := .vec, s1 := .scalar, fmts := lsFmts, mod := 0xFFFFFF }, .lld),
   (0x82, fun _ => { dst := .vec, s1 := .scalar, s2 := .lanes, fmts := wideFmts }, .lgath),
   (0x84, fun _ => { dst := .pred, s1 := .scalar, mod := 0xFFFFFF, pred := false }, .pld),
   (0xA0, fun _ => { s1 := .scalar, s2 := .scalar, mod := 0xFFF, pred := false }, .skick),
   (0xA1, fun _ => { s1 := .scalar, mod := 0x1FFF, pred := false }, .psetn),
   (0xB0, fun _ => { s1 := .scalar, mod := 0xFFFFFF, pred := false }, .wait), (0xB1, useSignal, .signal),
   (0xB2, fun _ => { mod := 0x7, pred := false }, .bar), (0xC0, fun _ => { dst := .sreg, pred := false }, .draw),
   (0xC1, fun _ => { dst := .vec }, .vdraw16), (0xC2, fun _ => { dst := .vec }, .vdraw32),
   (0xC3, fun _ => { dst := .pred, s1 := .scalar }, .dmask), (0xE0, fun _ => { mod := 0x3FFF, pred := false }, .br),
   (0xE1, fun _ => { mod := 0x13FFF }, .brp), (0xE2, fun _ => { s1 := .sreg, mod := 0x3FFF, pred := false }, .loop),
   (0xE3, fun _ => { pred := false }, .halt), (0xE4, fun _ => { mod := 0x7F, pred := false }, .trap)]

/-! ### Lists of a tile -/

/-- The state after the upsets of a list command struck its cluster (R237). -/
def struck (a : ClusterAt) (s : State) : State := s.updCluster a.tile a.cluster fun c => c.strike a.upsets

/-- The thread record of a condition that a context raised at an instruction (R165, R572). -/
def threadNote (s : State) (a : ClusterAt) (flag : Nat) (op : W32) (x n : Nat) : Record :=
  { type := 0x03, die := a.tile
    body := body [(64, s.stepNo), (6, a.tile), (6, s.phys a.tile), (2, a.cluster), (2, flag), (32, op.toNat), (8, x), (32, n)] }

/-- Nothing changed but one tile die. -/
def onlyTile (s t : State) (p : Nat) : Prop := (∀ q, q ≠ p → t.tile q = s.tile q) ∧ t = { s with tiles := t.tiles }

/-- The entry a tile's list stands at may start: a step is open, no fault has stopped the list, its words have been read, and its wait is
met (R269, R273, R445). -/
def listReady (s : State) (n l : Nat) (h : Head) : Prop :=
  let r := (s.ltile n).run l
  s.crown.openStep.isSome = true ∧ r.stopped = false ∧ s.entryRead n l r.pos = true ∧ s.waitMet n h (r.count r.pos) = true

/-- A tile's list has gone to a position, the entry it stood at counted once more (R271, R272); its other lists stand where they
stood. -/
def listMoved (s t : State) (n l pos : Nat) (stack : List (Nat × Nat)) : Prop :=
  let r := (s.ltile n).run l
  let q := (t.ltile n).run l
  q = { r with pos := pos, stack := stack, counts := q.counts } ∧
  (∀ j, q.count j = r.count j + if j = r.pos then 1 else 0) ∧ ∀ j, j ≠ l → (t.ltile n).run j = (s.ltile n).run j

/-- Entries in which every repeat is closed (R274). -/
inductive Closed {α : Type} : List (Entry α) → Prop where
  | nil : Closed []
  | item (h : Head) (a : α) (l : List (Entry α)) : Closed l → Closed (.item h a :: l)
  | group (h e : Head) (c : Nat) (f : Bool) (m : Nat) (b l : List (Entry α)) : Closed b → Closed l →
      Closed (.rbegin h c f m :: b ++ .rend e :: l)

/-- A list has gone past a repeat marker to a position (R274): the executions left in progress join those from before, and the marker and
each of them is counted once more. -/
def passedMarker (r q : ListRun) (m : Nat) (left : List Inst) (pos : Nat) (stack : List (Nat × Nat)) : Prop :=
  q = { r with pos := pos, ahead := [], pend := r.pend ++ left, stack := stack, counts := q.counts } ∧
  ∀ j, q.count j = r.count j + if j = m ∨ ∃ x ∈ left, x.pos = j then 1 else 0

/-- The items of a pour list from its position to the next marker, and those of them that are not done (R83, R113). -/
def pourSegment (s : State) (n k : Nat) : List (Nat × Head × PourItem) :=
  itemsFrom ((s.pourList n k).drop ((s.ltile n).run k).pos) ((s.ltile n).run k).pos
def pourLeft (s : State) (n k : Nat) : List Inst :=
  (numberItems ((s.ltile n).run k) (pourSegment s n k) ((s.cluster n k).arr.loads, (s.cluster n k).arr.items)).map Prod.fst

/-- A pour list may go past its next marker: its words are read, its wait is met, and where it signals, all before it is done. -/
def pourMayPass (s : State) (n k m : Nat) (h : Head) : Prop :=
  let r := (s.ltile n).run k
  s.crown.openStep.isSome = true ∧ r.stopped = false ∧ markerFrom (s.pourList n k) r.pos = some m ∧ s.entryRead n k m = true ∧
  s.waitMet n h (r.count m) = true ∧ (h.sig = none ∨ r.pend ++ pourLeft s n k = [])

/-- A pour list has gone past the marker at m: LOADs and items before it are counted (R113), and nothing else of the tile changed. -/
def pourPassed (s t : State) (n k m pos : Nat) (stack : List (Nat × Nat)) : Prop :=
  let a := (s.cluster n k).arr
  let x := (pourSegment s n k).foldl (fun x e => passItem x e.2.2.code) (a.loads, a.items)
  passedMarker ((s.ltile n).run k) ((t.ltile n).run k) m (pourLeft s n k) pos stack ∧
  (∀ j, j ≠ k → (t.ltile n).run j = (s.ltile n).run j) ∧ (∀ j, j ≠ k → t.cluster n j = s.cluster n j) ∧
  t.cluster n k = { s.cluster n k with arr := { a with loads := x.1, items := x.2 } } ∧
  t.ltile n = { s.ltile n with lists := (t.ltile n).lists, clusters := (t.ltile n).clusters }

/-- A hub's list may go past its next marker: every item before it has started or may, at most 64 of them are in progress, and all before
it is done where the marker signals and in the FENCE list (R274, R285). -/
def hubMayPass (s : State) (n l m : Nat) (h : Head) : Prop :=
  let r := s.hubRun n l
  let left := (s.hubStarts n l).1.map HubAt.inst
  s.hubsRun = true ∧ r.stopped = false ∧ markerFrom (s.hubList n l) r.pos = some m ∧ (s.hubStarts n l).2 = true ∧ (r.pend ++ left).length ≤ 64 ∧
  s.hubWaitMet n h (r.count m) = true ∧ (l ≠ 0 ∧ h.sig = none ∨ r.pend ++ left = [])

/-- A hub's list has gone past the marker at m; its other lists stand where they stood. -/
def hubPassed (s t : State) (n l m pos : Nat) (stack : List (Nat × Nat)) : Prop :=
  passedMarker (s.hubRun n l) ((t.hub n).run l) m ((s.hubStarts n l).1.map HubAt.inst) pos stack ∧
  (∀ j, j ≠ l → (t.hub n).run j = (s.hub n).run j) ∧ t.hub n = { s.hub n with lists := (t.hub n).lists }

/-- Nothing changed but one hub. -/
def onlyHub (s t : State) (h : Nat) : Prop := (∀ g, g ≠ h → t.hub g = s.hub g) ∧ t = { s with hubs := t.hubs }

/-! ### The matrix array -/

/-- An array item that is the next of its path and may start: an item of a code, with its operation id and addresses, at its count in
force; each earlier item that is not done lets it pass (R83 to R85, R111, R198, R269, R273, R299). -/
def itemStarts (a : ClusterAt) (s : State) (code : Nat) (n : PourAt) (it : PourItem) (count : Nat) : Prop :=
  let c := s.cluster a.tile a.cluster
  (∃ next, s.nextItem a.tile a.cluster (pathOf code) = some next ∧ next.at' = n ∧
    ∀ y ∈ next.skipped, mayPass y.2.1 y.2.2 it y.1 next.nr next.nc = true) ∧
  it = n.item ∧ it.code = code ∧
  s.crown.openStep.isSome = true ∧ c.arr.stopped = false ∧ s.entryRead a.tile a.cluster n.inst.pos = true ∧
  s.waitMet a.tile n.head n.inst.i = true ∧ s.countInForce a.tile a.cluster n.inst.pos n.raw = some count ∧
  (code = 0 → (c.arr.latched ≠ 0 ∨ c.arr.filler = true) → c.arr.parityOk = true) ∧
  s.checkSource a.tile a.cluster ({ it with n := count }.reads c.arr.nr c.arr.nc) = .ok

/-- Whether the entry at a position of a list is done. -/
def entryDone (r : ListRun) (p : Nat) : Prop := p < r.pos ∨ p ∈ r.ahead

/-- An array item has finished: its execution is done and counted, no other is, the corrections of its reads are counted (R250), and
nothing else of the package changed but its cluster. One from before the last marker was counted when the list passed that. -/
def itemFinished (a : ClusterAt) (s t : State) (n : PourAt) (fixed : Nat) : Prop :=
  let p := s.phys a.tile
  let r := (s.ltile a.tile).run a.cluster
  let q := (t.ltile a.tile).run a.cluster
  (if n.inst ∈ r.pend then q.pend = r.pend.erase n.inst ∧ (∀ j, entryDone q j ↔ entryDone r j) ∧ q.counts = r.counts
    else q.pend = r.pend ∧ (∀ j, entryDone q j ↔ entryDone r j ∨ j = n.inst.pos) ∧
      ∀ j, q.count j = r.count j + if j = n.inst.pos then 1 else 0) ∧
  q.stack = r.stack ∧ q.fetched = r.fetched ∧ (∀ j, j ≠ a.cluster.val → (t.ltile a.tile).run j = (s.ltile a.tile).run j) ∧
  (∀ k, k ≠ a.cluster.val → t.cluster a.tile k = s.cluster a.tile k) ∧
  (∀ x, tget 0 (t.tile p).dross x =
    if x = 0x04 ∧ 0 < fixed then min 0xFFFF (tget 0 (s.tile p).dross x + fixed) else tget 0 (s.tile p).dross x) ∧
  t.tile p = { s.tile p with clusters := (t.tile p).clusters, lists := (t.tile p).lists, dross := (t.tile p).dross } ∧
  onlyTile s t p

/-- An array with another's books: list ordinals, flags and status; every other field is its own. -/
def withBooks (a b : ArraySt) : ArraySt :=
  { a with loads := b.loads, items := b.items, pours := b.pours, prologue := b.prologue, pourNo := b.pourNo, itemCode := b.itemCode
           ramp := b.ramp, itemNo := b.itemNo, filler := b.filler, latched := b.latched }

/-- The rows and columns that hold an infinite or NaN latch are marked (R86). -/
def linesMarked (a : ArraySt) : Prop :=
  (∀ r, r < 128 → (a.badRows.getLsbD r = true ↔ ∃ k, k < 128 ∧ ingotFinite (a.latchAt r k) = false)) ∧
  ∀ k, k < 128 → (a.badCols.getLsbD k = true ↔ ∃ r, r < 128 ∧ ingotFinite (a.latchAt r k) = false)

/-- The flags collected so far in a pour, counted from 1, or in the prologue, 0 (R109). -/
def flagsOf (a : ArraySt) (pour : Nat) : FlagSet :=
  if pour = 0 then a.prologue else ((a.pours.find? fun p => p.pour == pour).getD {}).flags

/-- An item has set a flag of its pour where it met the flag's cause, and no other flag (R109). -/
def flagged (old new : FlagSet) (inv ovf nan : Prop) : Prop :=
  (new.inv.isSome = true ↔ old.inv.isSome = true ∨ inv) ∧ (new.ovf.isSome = true ↔ old.ovf.isSome = true ∨ ovf) ∧
  (new.nan.isSome = true ↔ old.nan.isSome = true ∨ nan)

/-- The ingot a runner or latch gets of an operand's element; past the operand's length it gets +0 (R78). -/
def ingotAt (piece : Nat) (v : List (List Num)) (b i : Nat) : BitVec 22 :=
  match v[b]? with
  | some x => (match x[i]? with | some y => pieceIngot piece y | none => 0)
  | none => 0

/-- The 128 products of a row (F) or a column (D) with moving vector b (R70, R74, R75). -/
def lineProducts (c : ArraySt) (it : PourItem) (v : List (List Num)) (b i : Nat) : List (Num × Bool) :=
  (List.range 128).map fun k =>
    pieceMul c.piece it.pieceA (if it.code = 1 then c.latchAt i k else c.latchAt k i) (ingotAt it.pieceA v b k)

/-- What an F or D pass adds to the register of line i for vector b: the tree sum into the value held, or into +0 under CLEAR (R51,
R74, R75, R77). -/
def lineSum (s : State) (c : ArraySt) (it : PourItem) (v : List (List Num)) (b i : Nat) : W32 × Bool × Bool :=
  accumulate (if it.clear then 0 else tget 0 (if it.code = 1 then c.rowEdge else c.colEdge) (256 * i + (it.eb + b) % 256))
    (treeSum ((lineProducts c it v b i).map Prod.fst)).1
    (laneSlice s.seed 0x02 s.stepNo (if it.code = 1 then i else 0x80 + i) (BitVec.ofNat 32 it.op) (b / 4) (b % 4))

/-- The product of site (r, c) for vector pair b of a W pass (R76). -/
def siteProduct (it : PourItem) (va vb : List (List Num)) (b r c : Nat) : Num × Bool :=
  pieceMul it.pieceA it.pieceB (ingotAt it.pieceA va b r) (ingotAt it.pieceB vb b c)

/-- The accumulator of site (r, c) before vector pair b of a W pass (R76, R77). -/
def siteBefore (s : State) (a : ArraySt) (it : PourItem) (va vb : List (List Num)) (r c : Nat) : Nat → W32
  | 0 => if it.clear then 0 else tget 0 a.site (128 * r + c)
  | b + 1 => (accumulate (siteBefore s a it va vb r c b) (siteProduct it va vb b r c).1
      (laneSlice s.seed 0x01 s.stepNo r (BitVec.ofNat 32 it.op) (b * 32 + c / 4) (c % 4))).1

/-- The conditions of the addition of vector pair b at site (r, c). -/
def siteSum (s : State) (a : ArraySt) (it : PourItem) (va vb : List (List Num)) (b r c : Nat) : W32 × Bool × Bool :=
  accumulate (siteBefore s a it va vb r c b) (siteProduct it va vb b r c).1
    (laneSlice s.seed 0x01 s.stepNo r (BitVec.ofNat 32 it.op) (b * 32 + c / 4) (c % 4))

/-- The writes of bytes at a local address, which wraps (R145). -/
def wrapped (a : Nat) (l : List Byte) : List (Nat × List (Byte × Byte)) :=
  let a := a % 0x800000
  [(a, (l.take (0x800000 - a)).map fun b => (b, 0xFF)), (0, (l.drop (0x800000 - a)).map fun b => (b, 0xFF))]

/-- The vector a drain converts: register number or row j's place in order, place i of the vector, with its slice (R87 to R90). -/
def drainWords (s : State) (a : ArraySt) (it : PourItem) (j : Nat) : List (W32 × Nat) :=
  if it.code = 4 then
    let q := (it.eb + j) % 256
    (List.range it.x).map fun i => (tget 0 (if it.col then a.colEdge else a.rowEdge) (256 * i + q),
      laneSlice s.seed 0x02 s.stepNo (if it.col then 0x80 + i else i) (BitVec.ofNat 32 it.op) (q / 4) (q % 4))
  else (List.range it.y).map fun i => (tget 0 a.site (128 * j + i),
    laneSlice s.seed 0x01 s.stepNo j (BitVec.ofNat 32 it.op) (i / 4) (i % 4))

/-- A drain's converted vector j. -/
def drainAt (s : State) (a : ArraySt) (it : PourItem) (j : Nat) : Drained :=
  drainVec (OutFmt.of it.outFmt it.a.mx it.outSr it.outOvf) (drainWords s a it j)

/-- The writes of a drain, in order (R87, R88). -/
def drainWrites (s : State) (a : ArraySt) (it : PourItem) : List (Nat × List (Byte × Byte)) :=
  let w := if it.code = 4 then it.x else it.y
  (List.range (if it.code = 4 then it.n else it.x)).flatMap fun j =>
    wrapped (it.a.addr + j * it.a.stride) (drainAt s a it j).bytes ++ wrapped (it.a.scale + j * cdiv w 32) (drainAt s a it j).scales

/-- The read of vector j of a preload (R91). -/
def preloadRead (c : Cluster) (it : PourItem) (j : Nat) : LsRead :=
  c.rd (it.a.addr + j * it.a.stride) (4 * if it.code = 5 then it.x else it.y)

/-- The binary32 word a preload puts at place i of vector j (R91): any NaN becomes 0x7FC0_0000. -/
def preloadAt (c : Cluster) (it : PourItem) (j i : Nat) : W32 :=
  let n := leNat (((preloadRead c it j).bytes.drop (4 * i)).take 4)
  if decode .f32 n = .nan then 0x7FC00000 else BitVec.ofNat 32 n
/-- The record of a flag of a pour, unless one for it has been sent in the step (R112, R113). -/
def pourNote (s : State) (a : ClusterAt) (sent : Bool) (pour flag : Nat) (loc : Option FlagLoc) : List Record :=
  match loc with
  | none => []
  | some l =>
    let b := body [(64, s.stepNo), (6, a.tile), (6, s.phys a.tile), (2, a.cluster), (32, pourField pour), (2, flag), (13, l.item), (4, l.mode),
      (8, l.ord), (8, l.a), (8, l.b)]
    if sent then [] else [{ type := 0x01, die := a.tile, body := b }]

/-- The flags of a pour or of the prologue are reported (R112 to R114): counters for INVALID and OVERFLOW, the tile's flag bits, a record
for each flag that had none; c is the cluster but for its marks of records sent. -/
def reported (a : ClusterAt) (s t : State) (pour : Nat) (f : FlagSet) (c : Cluster) : Prop :=
  let p := s.phys a.tile
  let sent := c.arr.sent
  t.cluster a.tile a.cluster = { c with arr := { c.arr with
    sent := (sent.1 || f.inv.isSome, sent.2.1 || f.ovf.isSome, sent.2.2 || f.nan.isSome) } } ∧
  (∀ k, k ≠ a.cluster.val → t.cluster a.tile k = s.cluster a.tile k) ∧
  (t.tile p).pourFlags = (s.tile p).pourFlags ||| BitVec.ofNat 16 (2 ^ (4 * a.cluster.val) * f.bits) ∧
  (∀ x, tget 0 (t.tile p).dross x = if (x = 0x18 ∧ f.inv.isSome) ∨ (x = 0x19 ∧ f.ovf.isSome)
    then min 0xFFFF (tget 0 (s.tile p).dross x + 1) else tget 0 (s.tile p).dross x) ∧
  t.tile p = { s.tile p with clusters := (t.tile p).clusters, pourFlags := (t.tile p).pourFlags, dross := (t.tile p).dross } ∧
  t.crown = { s.crown with records := s.crown.records ++
    (pourNote s a sent.1 pour 0 f.inv ++ pourNote s a sent.2.1 pour 1 f.ovf ++ pourNote s a sent.2.2 pour 2 f.nan) } ∧
  (∀ q, q ≠ p → t.tile q = s.tile q) ∧ t = { s with tiles := t.tiles, crown := t.crown }

/-! ### The matrix-vector path -/

/-- The state after upsets struck the cluster that a region's items name and the region's latches (R116, R237). -/
def struckMv (a : MvAt) (s : State) : State :=
  let s := s.updCluster a.tile (mvCluster a.region) fun c => c.strike a.upsets
  s.updLtile a.tile fun x => x.setMv a.region ((x.mv a.region).strike a.mvLatch)

/-- The half-unit of an MV command. -/
def halfAt (s : State) (a : MvAt) : MvSt := (s.ltile a.tile).mv a.region

/-- The next item of a region's MV list is of a code and may start (R125, R149, R269). -/
def mvStarts (a : MvAt) (s : State) (code : Nat) (h : Head) (it : MvItem) : Prop :=
  listReady s a.tile (4 + a.region) h ∧ it.code = code ∧ (halfAt s a).stopped = false ∧
  (s.mvList a.tile a.region)[((s.ltile a.tile).run (4 + a.region)).pos]? = some (.item h it)

/-- An MV item has finished: its list has gone on, the corrections of its reads are counted (R250), and nothing else of the package
changed but its half-unit and its cluster. -/
def mvFinished (a : MvAt) (s t : State) (fixed : Nat) : Prop :=
  let p := s.phys a.tile
  let r := (s.ltile a.tile).run (4 + a.region)
  listMoved s t a.tile (4 + a.region) (r.pos + 1) r.stack ∧
  (∀ n, n ≠ a.region.val → (t.tile p).mv n = (s.tile p).mv n) ∧
  (∀ k, k ≠ mvCluster a.region → t.cluster a.tile k = s.cluster a.tile k) ∧
  (∀ x, tget 0 (t.tile p).dross x =
    if x = 0x04 ∧ 0 < fixed then min 0xFFFF (tget 0 (s.tile p).dross x + fixed) else tget 0 (s.tile p).dross x) ∧
  t.tile p = { s.tile p with clusters := (t.tile p).clusters, mvs := (t.tile p).mvs, lists := (t.tile p).lists
                             dross := (t.tile p).dross } ∧ onlyTile s t p

/-- A half-unit with another's books: its counts of runs and items and its status. -/
def withMvBooks (a b : MvSt) : MvSt :=
  { a with runs := b.runs, items := b.items, runNo := b.runNo, itemCode := b.itemCode, setNo := b.setNo, itemNo := b.itemNo }

/-- A register of a half-unit before addition t of a run (R121 to R123): cleared first where the item says so. -/
def mvBefore (s : State) (it : MvItem) (c o : Nat) (old : W32) (terms : Nat → List (Num × Bool)) : Nat → W32
  | 0 => if it.clear then 0 else old
  | t + 1 => (accumulate (mvBefore s it c o old terms t) (treeSum ((terms t).map Prod.fst)).1
      (mvSlice s.seed s.stepNo (BitVec.ofNat 32 it.op) o t c)).1

/-- Addition t of a run to a register, with its conditions. -/
def mvSum (s : State) (it : MvItem) (c o : Nat) (old : W32) (terms : Nat → List (Num × Bool)) (t : Nat) : W32 × Bool × Bool :=
  accumulate (mvBefore s it c o old terms t) (treeSum ((terms t).map Prod.fst)).1
    (mvSlice s.seed s.stepNo (BitVec.ofNat 32 it.op) o t c)

/-- The weights of a run of n rows of K (R119, R278, R279). -/
def runWeights (s : State) (a : MvAt) (it : MvItem) (n : Nat) (data sc : List Byte) (e : Nat) : BitVec 22 :=
  let d := lget {} (s.tileMould a.tile).descs it.desc
  weightAt d (unpackBits ((Fmt.ofCode d.fmt).getD .f32).width (n * it.k) (leNat data)) sc e

/-- The products of segment t of row i in RUN_N, column c: past K the weights are +0 (R120, R121). -/
def segProducts (m : MvSt) (it : MvItem) (w : Nat → BitVec 22) (c i t : Nat) : List (Num × Bool) :=
  (List.range it.seg).map fun j => let k := it.seg * t + j
    ingotMul false (if k < it.k then w (i * it.k + k) else 0) (m.latchAt it.set c k)

/-- The products of row group t for output element k in RUN_T, column c: past the run's rows the weights are +0 (R120, R122). -/
def groupProducts (m : MvSt) (it : MvItem) (n : Nat) (w : Nat → BitVec 22) (c k t : Nat) : List (Num × Bool) :=
  (List.range (512 / it.seg)).map fun j => let i := 512 / it.seg * t + j
    ingotMul false (if i < n then w (i * it.k + k) else 0) (m.latchAt it.set c i)

/-- The two runs: code, command, additions to a register, registers, and the products of an addition (R121, R122). -/
def mvRunRows : List (Nat × (MvAt → Instr) × (MvItem → Nat → Nat) × (MvItem → Nat → Nat) ×
    (MvSt → MvItem → Nat → (Nat → BitVec 22) → Nat → Nat → Nat → List (Num × Bool))) :=
  [(1, .runN, fun it _ => cdiv it.k it.seg, fun _ n => n, fun m it _ w => segProducts m it w),
   (2, .runT, fun it n => cdiv n (512 / it.seg), fun it _ => it.k, groupProducts)]

/-- Column k of an ACC_DRAIN, converted (R126). -/
def accColumn (s : State) (m : MvSt) (it : MvItem) (k : Nat) : Drained :=
  drainVec (OutFmt.of it.outFmt it.a.mx it.outSr it.outOvf) ((List.range it.count).map fun j =>
    (tget 0 m.acc (2048 * k + it.ob + j), mvSlice s.seed s.stepNo (BitVec.ofNat 32 it.op) (it.ob + j) 0 k))

/-- The bytes of register j's eight columns in an ACC_DRAIN (R126). -/
def accRow (s : State) (m : MvSt) (it : MvItem) (j : Nat) : List Byte :=
  match (OutFmt.of it.outFmt it.a.mx it.outSr it.outOvf).fmt with
  | none => (List.range 8).flatMap fun k => leBytes 4 (tget 0 m.acc (2048 * k + it.ob + j)).toNat
  | some f => leBytes (packedBytes f 8) (packBits f.width ((List.range 8).map fun k => (lget {} (accColumn s m it k).raised j).bits))

/-- The writes of an ACC_DRAIN, in order. -/
def accWrites (s : State) (m : MvSt) (it : MvItem) : List (Nat × List (Byte × Byte)) :=
  ((List.range it.count).flatMap fun j => wrapped (it.a.addr + j * it.a.stride) (accRow s m it j)) ++
  (List.range 8).flatMap fun k => wrapped (it.a.scale + k * cdiv it.count 32) (accColumn s m it k).scales

/-! ### Stream engines -/

/-- The state after upsets struck the cluster of an engine (R237). -/
def struckEngine (a : EngineAt) (s : State) : State := s.updCluster a.tile (a.engine / 2) fun c => c.strike a.upsets

/-- The requests of a tile, each appended in order to the queue of the hub that owns its address, and nothing else of the hubs changed
(R204, R217). -/
def queuedBy (s t : State) (n : Nat) (rs : List Req) : Prop :=
  let p := s.phys n
  (∀ h q, tget [] (t.hub h).ingress q = tget [] (s.hub h).ingress q ++
    rs.filter fun r => decide (queueOf s p r.addr = some (h, q))) ∧
  ∀ h, t.hub h = { s.hub h with ingress := (t.hub h).ingress }

/-- The pieces of a run have gone to its destination in order (R216, R279, R280), the first of them of a number: local store, memory by
write requests, the weight intake, or a hub endpoint; the unused slots of a last group hold zero codes (R35). Nothing else of the
package changed but the engine. -/
def piecesMoved (s t : State) (n e : Nat) (r : DescRun) (first : Nat) (pieces : List (Chunk × List Byte)) : Prop :=
  let p := s.phys n
  let c := s.cluster n r.cluster
  let d := t.cluster n r.cluster
  let raw := pieces
  let pieces := pieces.map fun x => (x.1, x.1.clip x.2)
  let data := fun (l : List (Chunk × List Byte)) => (l.filter fun x => !x.1.scale).flatMap Prod.snd
  let sc := fun (l : List (Chunk × List Byte)) => (l.filter fun x => x.1.scale).flatMap Prod.snd
  (∀ k, k ≠ r.cluster → t.cluster n k = s.cluster n k) ∧ (∀ q, q ≠ p → t.tile q = s.tile q) ∧
  (∀ k, k ≠ e → (t.tile p).engine k = (s.tile p).engine k) ∧
  (∀ x, x ≠ 0x04 → tget 0 (t.tile p).dross x = tget 0 (s.tile p).dross x) ∧
  t.tile p = { s.tile p with clusters := (t.tile p).clusters, mvs := (t.tile p).mvs, engines := (t.tile p).engines
                             dross := (t.tile p).dross } ∧
  match r.dstKind with
  | 0 => (∀ b, lsByteAt d b = (pieces.flatMap fun x => wrapped x.1.dst x.2).foldl stored (lsByteAt c) b) ∧
      d = { c with ls := d.ls, lsErr := d.lsErr } ∧ (t.tile p).mvs = (s.tile p).mvs ∧ t = { s with tiles := t.tiles }
  | 1 => d = c ∧ (t.tile p).mvs = (s.tile p).mvs ∧ t = { s with tiles := t.tiles, hubs := t.hubs } ∧
      queuedBy s t n ((pieces.zipIdx first).map fun x =>
        { agent := .engine n e r.id x.2 true, kind := .write (x.1.2.map some), addr := x.1.1.dst })
  | 3 => d = c ∧ t = { s with tiles := t.tiles } ∧ (∀ g, g ≠ r.cluster / 2 → (t.tile p).mv g = (s.tile p).mv g) ∧
      let m := (s.tile p).mv (r.cluster / 2)
      let q := (t.tile p).mv (r.cluster / 2)
      q = { m with intake := q.intake } ∧ ∀ k, tget ([], []) q.intake k =
        if k = r.desc then ((tget ([], []) m.intake k).1 ++ data pieces, (tget ([], []) m.intake k).2 ++ sc pieces) else tget ([], []) m.intake k
  | _ => d = c ∧ (t.tile p).mvs = (s.tile p).mvs ∧ t = { s with tiles := t.tiles, hubs := t.hubs, crown := t.crown } ∧
      let v := s.pushElems (n / 6) r.dst (toElems ((Fmt.ofCode r.fmt).getD .f32) r.mx r.rowElems r.elems (data raw) (sc raw))
      t.hubs = v.hubs ∧ t.crown = v.crown

/-- What a descriptor's run moves (R278 to R280): elements, pieces; off and count are a kick's, add an advance. -/
def runElems (d : Desc) (count : Nat) : Nat := if count = 0 then d.rows * d.rowElems else count
def runPieces (s : State) (d : Desc) (off count : Nat) (add : Int) : List Chunk :=
  let src := s.descAddr d.srcKind d.srcSel d.src d.srcBank (add + if d.offsetSrc then (off : Int) else 0)
  let dst := s.descAddr d.dstKind d.dstSel d.dst d.dstBank (add + if d.offsetSrc then 0 else (off : Int))
  runChunks d src dst (s.descAddr d.srcKind d.sscSel d.ssc d.srcBank add) (s.descAddr d.dstKind d.dscSel d.dsc d.dstBank add)
    (runElems d count)

/-- A run of a descriptor has started (R216, R280): it holds the next number of its engine; its reads are queued at the hubs that own
their addresses, or its local source is read and on its way, or it waits for its endpoint. A halt at an uncorrectable word is
another case. -/
def runStarted (s t : State) (n e desc off count : Nat) (add : Int) (sig : Option (Nat × Nat)) : Prop :=
  let d := lget {} (s.tileMould n).descs desc
  let g := (s.ltile n).engine e
  let chunks := runPieces s d off count add
  let reads := chunks.map fun x => (s.cluster n d.cluster).rd x.src x.len
  ∃ r : DescRun, (t.ltile n).engine e = { g with runs := g.runs ++ [r], started := g.started + 1 } ∧ r.id = g.started ∧
    r.desc = desc ∧ r.elems = runElems d count ∧ r.chunks = chunks ∧ r.sig = sig ∧ r.fill = d.riser ∧ r.dstKind = d.dstKind ∧
    (d.srcKind = 0 → r.next = chunks.length ∧ r.writes = (if d.dstKind = 1 then chunks.length else 0) ∧
      piecesMoved s t n e r 0 (chunks.zip (reads.map LsRead.bytes))) ∧
    (d.srcKind ≠ 0 → r.next = 0 ∧ r.writes = 0 ∧ (∀ k, k ≠ e → (t.ltile n).engine k = (s.ltile n).engine k) ∧
      t.ltile n = { s.ltile n with engines := (t.ltile n).engines } ∧ (∀ q, q ≠ s.phys n → t.tile q = s.tile q) ∧
      t = { s with tiles := t.tiles, hubs := t.hubs } ∧ queuedBy s t n (if d.srcKind = 1 then chunks.zipIdx.map fun c =>
        { agent := .engine n e g.started c.2 false, kind := .read c.1.len, addr := c.1.src } else []))

/-- A local source can be read and a local destination written (R243, R245); a stream to a hub endpoint has an element, and the endpoint
gives it credit (R288). The runs of the engine are numbered as they started. -/
def runReadable (s : State) (n e desc off count : Nat) (add : Int) : Prop :=
  let d := lget {} (s.tileMould n).descs desc
  let c := s.cluster n d.cluster
  d.srcKind = 0 ∧ d.dstKind ≤ 3 ∧ ((s.ltile n).engine e).numbered ∧
  (∀ x ∈ runPieces s d off count add, (c.rd x.src x.len).bad = none ∧
    (d.dstKind = 0 → ∀ w ∈ wrapped x.dst (x.clip (c.rd x.src x.len).bytes), writable c w)) ∧
  (d.dstKind = 2 → runPieces s d off count add ≠ [] ∧
    s.credit (n / 6) (s.descAddr d.dstKind d.dstSel d.dst d.dstBank (add + if d.offsetSrc then 0 else (off : Int))) = true)

/-- A run has completed (R151, R280, R297): it has left its engine, its riser has the tag of its source, its data are traced, and its
signal is sent. -/
def runCompleted (s t : State) (n e : Nat) (r : DescRun) (tag : Option Tag) (data : List Byte) : Prop :=
  let g := (s.ltile n).engine e
  ∃ u : State, t = (u.traceStream (n / 6) (tileAgent n (10 + e)) data).tileItemSignal n r.sig ∧
    (u.ltile n).engine e = { g with runs := g.runs.filter fun x => x.id != r.id } ∧
    (∀ k, k ≠ e → (u.ltile n).engine k = (s.ltile n).engine k) ∧
    (∀ k, tget .empty (u.ltile n).risers k =
      if r.fill ≠ 0xFF ∧ k = r.fill then tag.getD .empty else tget .empty (s.ltile n).risers k) ∧
    (∀ k, k ∈ (u.ltile n).prologue ↔ k ∈ (s.ltile n).prologue ∧ (r.fill ≠ 0xFF → k ≠ r.fill)) ∧
    u.ltile n = { s.ltile n with engines := (u.ltile n).engines, risers := (u.ltile n).risers, prologue := (u.ltile n).prologue } ∧
    onlyTile s u (s.phys n)

/-- The pieces of a run out of the elements its endpoint gave (R279): packed elements, then scale bytes. -/
def cutPieces : List Chunk → List Byte → List Byte → List (Chunk × List Byte)
  | [], _, _ => []
  | c :: l, b, sc => if c.scale then (c, sc.take c.len) :: cutPieces l b (sc.drop c.len) else (c, b.take c.len) :: cutPieces l (b.drop c.len) sc

/-! ### Memory and hub lists -/

/-- A byte of memory as a read delivers it (R222, R232, R237). -/
def memByteAt (s : State) (a : Nat) : Byte := lget 0 (s.readSector (sectorOf a)).1 (a % 32)

/-- Bytes with a masked write laid over them. -/
def laid (f : Nat → Byte) (w : Nat × List (Option Byte)) (a : Nat) : Byte :=
  match (if w.1 ≤ a then w.2[a - w.1]? else none) with
  | some (some v) => v
  | _ => f a

/-- A masked write lies in memory, and covers in part no sector that is uncorrectable (R223, R243, R245). -/
def canStore (s : State) (a : Nat) (m : List (Option Byte)) : Prop :=
  ∀ x ∈ sectorsOf a m.length, s.memOk x = true ∧ ((s.readSector x).2.2 = true →
    (sliceMask a m x).all Option.isNone = true ∨ (sliceMask a m x).all Option.isSome = true)

/-- Nothing changed but hubs and memory. -/
def onlyMemory (s t : State) : Prop := t = { s with hubs := t.hubs, mem := t.mem, memErr := t.memErr, poison := t.poison }

/-- No SRAM word of a hub is in error (R237): what a word in error does stands in a clause of its own. -/
def sramClean (s : State) : Prop := ∀ h, (s.hub h).sramErr = []

/-- The state after errors struck a hub's sectors and SRAM words (R237). -/
def struckHub (h : Fin 8) (e : Hits) (s : State) : State := s.strikeHub h e

/-- The bytes of a write request. -/
def Req.bytes (r : Req) : List (Option Byte) := match r.kind with | .write b => b | _ => []

/-- An item of a hub's list has finished: its execution is done and counted, no other that runs is, and its signal is sent (R271, R273,
R285). One from before the last marker was counted when the list passed that. -/
def hubItemFinished (s t : State) (h l : Nat) (n : Inst) (hd : Head) : Prop :=
  ∃ u : State, t = u.hubItemSignal h hd.sig ∧ onlyHub s u h ∧ u.hub h = { s.hub h with lists := (u.hub h).lists } ∧
    (let r := s.hubRun h l
     let q := u.hubRun h l
     if n ∈ r.pend then q.pend = r.pend.erase n ∧ q.counts = r.counts ∧
       ∀ p, s.skipAt h l p = false → (entryDone q p ↔ entryDone r p)
     else q.pend = r.pend ∧ (∀ p, s.skipAt h l p = false → (entryDone q p ↔ entryDone r p ∨ p = n.pos)) ∧
       ∀ p, q.count p = r.count p + if p = n.pos then 1 else 0) ∧
    ∀ j, j ≠ l → (u.hub h).run j = (s.hub h).run j

/-- A fault has stopped one list of a hub (R445); nothing else changed. -/
def hubStopped (s t : State) (h l : Nat) : Prop :=
  onlyHub s t h ∧ t.hub h = { s.hub h with lists := (t.hub h).lists } ∧
  ∀ j, (t.hub h).run j = if j = l then { (s.hub h).run j with stopped := true } else (s.hub h).run j

/-- What a device access of a sector writes: the write requests that it serves, in acceptance order (R221). -/
def writesAt (x : Hub) (sector : Nat) : List Req := (x.writers sector).filterMap fun i => (x.slots[i]?).map Slot.req

/-- A device write of a sector can store: it lies in populated memory, and is not uncorrectable unless all of it is written, or none (R223,
R243, R245). -/
def sectorStores (s : State) (x : Hub) (sector : Nat) : Prop :=
  let m := (writesAt x sector).foldl (fun m y => overMask m (y.maskOf sector)) (List.replicate 32 none)
  s.memOk (32 * sector) = true ∧ ((s.readSector (32 * sector)).2.2 = true → m.all Option.isNone = true ∨ m.all Option.isSome = true)
/-- A list of adds in key order (R157, R225). -/
def keyOrder (l : List Add) : Prop := l.Pairwise fun a b => b.lt a = false

/-- The pending adds of an epoch at an address, in the buffer and in the spill log. -/
def addsAt (x : Hub) (e a : Nat) : List Add := (x.adds ++ x.spilled).filter fun y => y.epoch == e && y.addr == a

/-! ### Reduction nodes -/

/-- The values the slots of a node hold for its next element, in slot order (R336, R340). -/
def nodeVals (s : State) (h : Nat) (n : NodeRun) : List Num :=
  n.w.slots.zipIdx.map fun z => wireNum z.1.wire ((s.slotElem h n z.2 z.1).getD {})

/-- The values on the second path of a sampled element: a gauntlet entry where the slot has one, else the main value (R354). -/
def secondVals (s : State) (h : Nat) (n : NodeRun) : List Num :=
  n.w.slots.zipIdx.map fun z =>
    let main := wireNum z.1.wire ((s.slotElem h n z.2 z.1).getD {})
    let same := (s.slotEntries h n z.2 z.1).filter fun x => x.elem == n.next
    if z.1.leaf then main else match same with
      | [] => main
      | x :: _ => wireNum z.1.wire { bits := x.value.setWidth 64, scale := some x.scale }

/-- A node may take its next element: no earlier execution of its item takes elements still, every slot has delivered it, and its gauntlet
entry where there is to be one, and its output endpoint has credit (R288, R339, R345, R353). -/
def nodeReady (s : State) (h : Nat) (n : NodeRun) : Prop :=
  n.done = false ∧ n.stopped = false ∧ (s.hub h).firstOf n = true ∧ n.next < n.elems ∧ s.credit n.w.outHub n.epOut = true ∧
  ∀ z ∈ n.w.slots.zipIdx, (s.slotElem h n z.2 z.1).isSome = true ∧ s.entryKnown h n z.2 z.1 = true

/-- Nothing changed but hubs, the records on their way, and the count of free values. -/
def onlyHubs (s t : State) : Prop := t = { s with hubs := t.hubs, crown := { s.crown with records := t.crown.records } }

/-- A hub command changed nothing but its hub's own nodes, endpoints and counters. -/
def keepsStores (x y : Hub) : Prop :=
  y = { x with nodes := y.nodes, eps := y.eps, dross := y.dross, origin := y.origin, late := y.late }

/-! ### Updates -/

/-- A little-endian number of n bytes of memory, as reads deliver them. -/
def memLe (s : State) (a n : Nat) : Nat := leNat ((List.range n).map fun j => memByteAt s (a + j))

/-- A binary32 word of memory. -/
def wordAt (s : State) (a : Nat) : W32 := BitVec.ofNat 32 (memLe s a 4)

/-- Every sector of a range lies in memory, and none is uncorrectable (R242, R245). -/
def canRead (s : State) (a n : Nat) : Prop := ∀ x ∈ sectorsOf a n, (addrHome x).isSome = true ∧ (s.readSector x).2.2 = false

/-- No request waits at any sorter, and no SRAM word is in error: an access of a hub's own is the next one served (R217 to R222). -/
def quiet (s : State) : Prop :=
  ∀ h, (s.hub h).slots = [] ∧ (s.hub h).ingress = [] ∧ (s.hub h).sramErr = [] ∧ ∀ y ∈ (s.hub h).resps, y.req.agent ≠ .own

/-- A hub that has served reads of its own or another's: decodes counted, rows opened (R220, R250). -/
def hubRead (x y : Hub) : Prop := y = { x with dross := y.dross, openRow := y.openRow, passed := y.passed }

/-- A piece of a range written in rising order up to hi: where it opens a sector that the range covers whole, the write replaces every
symbol of it (R243, R310). -/
def onePiece (a hi : Nat) (b : List Byte) : Nat × List (Option Byte) :=
  (a, (if a % 32 = 0 ∧ a + 32 ≤ hi then b ++ List.replicate (32 - b.length) 0 else b).map some)

/-- Element i of a range of n elements of k bytes, as an item writes it. -/
def elemPiece (base i n k v : Nat) : Nat × List (Option Byte) := onePiece (base + k * i) (base + k * n) (leBytes k v)

/-- Entries of a learning-rate table in memory: START, ETA, DELTA (R322). -/
def lrStart (s : State) (a i : Nat) : Nat := memLe s (a + 8 + 16 * i) 8
def lrRate (s : State) (a i : Nat) (g : Nat) : W32 :=
  rnAdd (wordAt s (a + 16 + 16 * i)) (rnMul (wordAt s (a + 20 + 16 * i)) (toF32 (Num.ofInt ((g : Int) - lrStart s a i))))

/-- A table that passes its check (R322). -/
def lrGood (s : State) (a : Nat) : Prop :=
  1 ≤ memLe s a 8 ∧ memLe s a 8 ≤ 4096 ∧ ∀ i, i + 1 < memLe s a 8 → lrStart s a i < lrStart s a (i + 1)

/-- The rate of step g by a table that passes its check (R322). -/
def lrIs (s : State) (a g : Nat) (eta : W32) : Prop :=
  (g < lrStart s a 0 → eta = 0) ∧
  ∀ i, i < memLe s a 8 → lrStart s a i ≤ g → (i + 1 < memLe s a 8 → g < lrStart s a (i + 1)) → eta = lrRate s a i g

/-- What one element leaves of a recipe (R325, R326): direction, first moment and second moment, from the gradient and the committed
state. -/
def recipeIs (n : UpdRun) (x m v r c u m' v' : W32) : Prop :=
  let lin := rnAdd (rnMul n.w.beta1 m) (rnMul n.b1c x)
  let rsq := fun (a : W32) => BitVec.ofNat 32 (sfuRsq (f32 (rnAdd a n.w.eps))).bits
  match n.w.recipe with
  | 0 => m' = rnAdd (rnMul n.w.beta1 m) x ∧ u = m' ∧ v' = v
  | 1 => m' = lin ∧ v' = v ∧ u = (match f32 lin with
      | .nan => 0x7FC00000
      | y => if 0 < y.cmp Num.zero then 0x3F800000 else if y.cmp Num.zero < 0 then 0xBF800000 else 0)
  | 2 => m' = lin ∧ v' = v ∧ u = rnMul (if n.w.m1 then lin else x) (rsq (rnMul (rnMul r c) n.kappa))
  | _ => m' = lin ∧ v' = rnAdd (rnMul n.w.beta2 v) (rnMul n.b2c (rnMul x x)) ∧ u = rnMul lin (rsq v')

/-- The writes of one element, in order (R310, R324, R326): recipe state, master, working copy. -/
def updWrites (s : State) (n : UpdRun) (m' v' row w' : W32) (copy : Nat) : List (Nat × List (Option Byte)) :=
  let o := (1 - s.cb) * s.bankSpan
  let i := n.next
  (if n.w.recipe ≠ 2 ∨ n.w.m1 = true then [elemPiece (n.mom + o) i n.elems 4 m'.toNat] else []) ++
  (if n.w.recipe = 3 then [elemPiece (n.sec + o) i n.elems 4 v'.toNat] else []) ++
  (if n.w.recipe = 2 ∧ i % n.w.cols + 1 = n.w.cols then
    [elemPiece (n.sec + o) (i / n.w.cols) (n.elems / n.w.cols) 4 row.toNat] else []) ++
  [elemPiece (n.masters + o) i n.elems 4 w'.toNat,
   elemPiece (n.wc + o) i n.elems (((Fmt.ofCode n.fmt).getD .bf16).width / 8) copy]

/-- A hub with its own work, tags and counters, and every store, list and queue another's. -/
def hubWork (x y : Hub) : Prop :=
  y = { x with eps := y.eps, dross := y.dross, tags := y.tags, covered := y.covered, validHbm := y.validHbm, validSlow := y.validSlow
               openRow := y.openRow, passed := y.passed }

/-- An UPDATE item has ended, its norm partial written and no other byte (R320, R327, R331): a finite one, or one whose policy is not to
halt, is done and signals. Its digest is compared in a clause of its own. -/
def updEnded (s t : State) (h index : Nat) (n : UpdRun) : Prop :=
  let a := n.nrm + (1 - s.cb) * s.bankSpan
  ∃ z : State, (∀ b, memByteAt z b = laid (memByteAt s) (a, (leBytes 8 n.q.toNat).map some) b) ∧ onlyMemory s z ∧
    (∀ q, q ≠ h → hubWork (s.hub q) (z.hub q)) ∧
    (z.hub h).nonfinite = ((s.hub h).nonfinite || n.nonfinite) ∧ (z.hub h).updNonfinite = ((s.hub h).updNonfinite || n.nonfinite) ∧
    hubWork { s.hub h with upds := (z.hub h).upds, updDone := (z.hub h).updDone, nonfinite := (z.hub h).nonfinite
                           updNonfinite := (z.hub h).updNonfinite } (z.hub h) ∧ (z.hub h).eps = (s.hub h).eps ∧
    if n.nonfinite = true ∧ s.mouldSet.step.halt = true then
      (z.hub h).upds = (s.hub h).upds.set index { n with stopped := true } ∧ (z.hub h).updDone = (s.hub h).updDone ∧
      let note : Report := { die := 48 + h, code := 0x0D, body := body [(64, s.stepNo), (3, h), (16, n.pos), (32, n.op.toNat)] }
      t = { z with crown := { z.crown with reports := z.crown.reports ++ [note] } }
    else (z.hub h).upds = (s.hub h).upds.eraseIdx index ∧
      (z.hub h).updDone = (s.hub h).updDone ++ [(n.ord, n.digest, 4 * n.elems)] ∧ t = z.hubItemSignal h n.sig

/-- A priority message is taken at once (R389): its port is up, it comes next and is for this device, and no flit that came early waits
for it. -/
def takenNow (s : State) (m : PrioHead) (b : PrioBody) (hub : Fin 8) (u : State) : Prop :=
  (s.port (m.port.val / 2) (m.port.val % 2)).up = true ∧ s.prioIn m b hub = (u, true) ∧ u.prioNext m.port.val = []

/-- What the port of a message then puts on its lanes (R387, R398): the acknowledgement, and what its effect has to send. -/
def answered (s : State) (m : PrioHead) (w : State) : State :=
  w.linkAfter (m.port.val / 2) (m.port.val % 2) (s.port (m.port.val / 2) (m.port.val % 2)).line.length

/-! ### Hub streams -/

/-- An item of a hub can take in what it moves: its endpoint holds it all, or no access waits before its memory range, which can be read
(R222, R245, R360, R403). -/
def canTake (s : State) (h : Nat) (hd : Head) (i : Nat) (it : HubItem) : Prop :=
  if it.epIn ≠ 0xFFF then it.elems ≤ ((s.hub h).ep it.epIn).data.length
  else quiet s ∧
    canRead s (s.itemAddr hd i it.sel it.addr (s.bankAdd it.bankSel)) (packedBytes ((Fmt.ofCode it.fmt).getD .f32) it.elems)

/-- What an item of a hub has taken in (R353, R360, R361, R403): the first elements of its endpoint and the gauntlet entries of the streams
that began before the next execution's, or its memory range with the tag of the tagged range that holds it. -/
def takenIn (s : State) (h : Nat) (hd : Head) (i : Nat) (it : HubItem) (els : List Elem) (gaunt : List GEntry) (u : State) : Prop :=
  if it.epIn ≠ 0xFFF then
    let e := (s.hub h).ep it.epIn
    els = e.data.take it.elems ∧ gaunt = (e.gaunt.filter fun g => decide (g.1 < (i + 1) * it.elems)).map Prod.snd ∧
    onlyHub s u h ∧ u.hub h = { s.hub h with eps := (u.hub h).eps } ∧ ∀ k, (u.hub h).ep k = if k = it.epIn then
      { e with data := e.data.drop it.elems, gaunt := e.gaunt.filter fun g => !decide (g.1 < (i + 1) * it.elems) } else (s.hub h).ep k
  else
    let f := (Fmt.ofCode it.fmt).getD .f32
    let n := packedBytes f it.elems
    let a := s.itemAddr hd i it.sel it.addr (s.bankAdd it.bankSel)
    els = withTag (s.memTag h a n) (toElems f false 1 it.elems ((List.range n).map fun j => memByteAt s (a + j)) []) ∧ gaunt = [] ∧
    u = { s with hubs := u.hubs } ∧ ∀ g, hubRead (s.hub g) (u.hub g)

/-- A stream's bytes have been written to memory, and to no other byte (R223), with their marks at the hub's tagged ranges (R297, R461);
none of it in a replay that touches a tagged range (R465). -/
def landedAt (s t : State) (h a : Nat) (b : List Byte) : Prop :=
  if s.tracing = true ∧ (∃ r ∈ s.tagRanges h, overlaps a b.length r.2.1 r.2.2 = true) then t = s
  else (∀ x, memByteAt t x = laid (memByteAt s) (a, b.map some) x) ∧ onlyMemory s t ∧ (∀ q, hubWork (s.hub q) (t.hub q)) ∧
    (∀ q, (t.hub q).eps = (s.hub q).eps) ∧ (∀ q, q ≠ h → (t.hub q).tags = (s.hub q).tags ∧ (t.hub q).covered = (s.hub q).covered) ∧
    (∀ k, (∀ r ∈ s.tagRanges h, r.1 = k → overlaps a b.length r.2.1 r.2.2 = false) → tget .empty (t.hub h).tags k = tget .empty (s.hub h).tags k ∧
      tget [] (t.hub h).covered k = tget [] (s.hub h).covered k) ∧
    ∀ r ∈ s.tagRanges h, overlaps a b.length r.2.1 r.2.2 = true →
      let c := addRange (tget [] (s.hub h).covered r.1) (max a r.2.1, min (a + b.length) (r.2.1 + r.2.2))
      tget [] (t.hub h).covered r.1 = c ∧ tget .empty (t.hub h).tags r.1 =
        if coversRange c r.2.1 (r.2.1 + r.2.2) then (if s.crown.openStep.isSome then .prov s.writeGen else .final s.writeGen)
        else tget .empty (s.hub h).tags r.1

/-- A stream with its header and trailer, as a port takes it to send (R384, R393): cut into flits of 4,096 bytes, on the lanes in turn. -/
def streamSent (s : State) (h m : Nat) (x : StreamHead) (payload : List Byte) (tag : Option Tag) : State :=
  let head := { x with bytes := payload.length, src := s.crown.rankNow.toNat, epoch := s.crown.epoch.toNat }
  let all := head.encode ++ payload ++ trailer payload tag
  let n := (all.length + 4095) / 4096
  let bodies := (List.range n).map fun i => (all.drop (4096 * i)).take 4096
  let lanes := (List.range n).map (· % 8)
  (s.updPort h m fun p => { p with
    nextId := p.nextId + 1
    tx := p.tx ++ [{ id := p.nextId, kind := x.kind, step := x.step, win := x.win, closed := true, bodies := bodies, lanes := lanes }] }).pumpPort h m

/-- Bytes have been written to memory, and no other byte; tags and endpoints are as they were (R212, R223). -/
def writtenAt (s t : State) (a : Nat) (b : List Byte) : Prop :=
  (∀ x, memByteAt t x = laid (memByteAt s) (a, b.map some) x) ∧ onlyMemory s t ∧
  ∀ q, t.hub q = { s.hub q with dross := (t.hub q).dross, validHbm := (t.hub q).validHbm, validSlow := (t.hub q).validSlow
                                openRow := (t.hub q).openRow, passed := (t.hub q).passed }

/-- What a stream bound to a PORT_RECV has brought (R393, R395, R404): its bytes with those now taken, its payload so far, its trailer once it
is whole, and its elements so far; the last one waits for the trailer, which holds the tag. -/
def cameBytes (r : RxStream) : List Byte := r.bytes ++ r.held.flatten
def cameCount (it : HubItem) (r : RxStream) : Nat :=
  let p := streamParts (cameBytes r)
  if p.2.isSome then it.elems
  else min (it.elems - 1) (elemsIn ((Fmt.ofCode it.fmt).getD .f32) it.elems (StreamHead.decode r.head).bytes p.1.length)
def cameElems (it : HubItem) (r : RxStream) : List Elem :=
  let p := streamParts (cameBytes r)
  let els := streamElems ((Fmt.ofCode it.fmt).getD .f32) it.elems
    (p.1 ++ List.replicate ((StreamHead.decode r.head).bytes - p.1.length) 0)
  (match p.2 with | some tr => withTag (trailerTag tr) els | none => els).take (cameCount it r)

/-- What has come of a stream is delivered (R395): k elements or entries in all, and its flits count. -/
def delivers (s : State) (q : Nat) (r : RxStream) (k : Nat) : State :=
  s.updPort (q / 2) (q % 2) fun o => o.deliverRx { r with bytes := cameBytes r, held := [], passed := k } r.held.length

/-- The gauntlet sub-stream beside a stream has been passed on as far as it has come (R353, R408), and whether that is all of it. -/
def gauntPassed (s y : State) (h ep base : Nat) (gauntIn : Bool) (ga : Option (Nat × RxStream)) (pass all : Bool) : Prop :=
  match ga with
  | none => y = s ∧ all = !gauntIn
  | some (q, r) =>
    let p := streamParts (cameBytes r)
    let k := p.1.length / 8
    all = p.2.isSome ∧ y = delivers (if pass then s.pushGaunt h ep base ((gEntries k p.1).drop r.passed) else s) q r k

/-! ### The crown -/

/-- A tile after an abort or at the start of a step (R72, R117, R131, R140, R144): its clusters keep both stores; contexts, arrays, launches,
lists and tokens start anew, and what TIL_MV_STATUS shows stays. Requests on their way stay outstanding, but for an abort (R229). -/
def tileCleared (x y : Tile) (abort : Bool) : Prop :=
  (∀ k, y.cluster k = { istore := (x.cluster k).istore, istoreErr := (x.cluster k).istoreErr, ls := (x.cluster k).ls
                        lsErr := (x.cluster k).lsErr, launchSeq := (x.cluster k).launchSeq, ctxs := (y.cluster k).ctxs
                        outstanding := if abort then 0 else (x.cluster k).outstanding } ∧
    ∀ c, (y.cluster k).ctx c = { outstanding := if abort then 0 else ((x.cluster k).ctx c).outstanding }) ∧
  (∀ g, y.mv g = { runNo := (x.mv g).runNo, itemCode := (x.mv g).itemCode, setNo := (x.mv g).setNo, itemNo := (x.mv g).itemNo }) ∧
  y.lists = [] ∧ y.tokens = []

/-- No tag names a step in progress any more, and every other tag is as it was (R297). -/
def provDropped (x y : Tbl Tag) : Prop :=
  (∀ k g, tget .empty y k ≠ .prov g) ∧ ∀ k, (∀ g, tget .empty x k ≠ .prov g) → tget .empty y k = tget .empty x k

/-- A hub whose work of the step has been given up (R229, R244, R346, R448, R456): accepted requests stay, and so do a STATIC rewrite and a
fettling pass; the rest is gone. -/
def hubAborted (x y : Hub) (keep : Bool) : Prop :=
  y.slots = x.slots ∧ y.mapout = x.mapout ∧ y.dross = x.dross ∧ y.validHbm = x.validHbm ∧ y.validSlow = x.validSlow ∧ y.sramErr = x.sramErr ∧
  (∀ q, tget [] y.ingress q = if q = queueStatic ∨ q = queueFettle then tget [] x.ingress q else []) ∧
  y.resps = [] ∧ y.adds = [] ∧ y.spill = [] ∧ y.lists = [] ∧ y.tokens = [] ∧ y.eps = [] ∧ y.nodes = [] ∧ y.upds = [] ∧
  y.ckpt = [] ∧ y.fences = 0 ∧ y.n2 = none ∧ y.relabel = false ∧ (∀ m, (y.port m).tx = [] ∧ (y.port m).up = (x.port m).up) ∧
  (if keep then y.tags = x.tags else provDropped x.tags y.tags) ∧
  ∀ n, y.slot n = if (x.slot n).state = 1 then {} else x.slot n

/-- The local abort has begun (R370, R447, R448, R451): the work of the step is gone from every die; a device that keeps its tags keeps the
step it voted for; stored bytes, committed generation, time, power and pattern are as they were. -/
def abortBegun (s t : State) (keep : Bool) : Prop :=
  t.crown.rstate = .aborting ∧ t.crown.order = 1 ∧ t.crown.openStep = none ∧ t.crown.deferring = false ∧ t.crown.gen = s.crown.gen ∧
  t.crown.held = (if keep then (match s.crown.openStep with | some o => some o | none => s.crown.held) else none) ∧
  t.crown.voted = (if keep then s.crown.voted else none) ∧ t.crown.epoch = s.crown.epoch ∧ t.crown.job = s.crown.job ∧
  t.crown.feeds = s.crown.feeds ∧ t.crown.reports = s.crown.reports ∧ t.crown.seq = s.crown.seq + 1 ∧
  t.crown.reshardIn = [] ∧ t.crown.phaseDone = [] ∧ t.crown.reshard = s.crown.reshard ∧
  (∀ p, tileCleared (s.tile p) (t.tile p) true ∧ (t.tile p).engines = [] ∧ (t.tile p).dross = (s.tile p).dross ∧
    if keep then (t.tile p).risers = (s.tile p).risers else provDropped (s.tile p).risers (t.tile p).risers) ∧
  (∀ h, hubAborted (s.hub h) (t.hub h) keep) ∧ t = { s with tiles := t.tiles, hubs := t.hubs, crown := t.crown, link := t.link }

/-- The step that an outcome is due for (R21, R368): the open one, or the next while none is open. -/
def outcomeDue (s : State) : Nat := match s.crown.openStep with | some o => if o.replay then s.crown.gen + 1 else o.step | none => s.crown.gen + 1

/-- The coordinator of a step that is not decided discards it before its device aborts (R21, R368, R369). -/
def discardedFirst (s u : State) : Prop :=
  if s.crown.rankNow.toNat = s.coord ∧ s.isDecided (outcomeDue s) = false then u = s.recordDecision (outcomeDue s) true 2 else u = s

/-- A running crown has learnt of its first fault (R21, R368, R370, R446, R447): the coordinator of a step that is not decided discards it
first, be it open or not yet open; a device that has voted for its open step and holds no outcome waits for it; any other aborts. -/
def faultActedOn (s t : State) : Prop :=
  if s.crown.rankNow.toNat ≠ s.coord ∧ s.crown.voted.isSome = true ∧ (∃ o, s.crown.openStep = some o ∧ o.replay = false) then
    t = { s with crown := { s.crown with deferring := true } }
  else ∃ u : State, abortBegun u t false ∧ discardedFirst s u

/-- A crown at the later orders of a restart has learnt of a fault (R21, R368, R454): it returns to order 1; the coordinator discards the
init step where that is open. -/
def abortedAgain (s t : State) : Prop :=
  ∃ u : State, abortBegun u t false ∧
    if ∃ o, s.crown.openStep = some o ∧ o.replay = false then discardedFirst s u else u = s

/-- A fault has been logged (R472, R473, R572): under an event type of its own first, then as the FAULT event; the crown keeps its code and
counts it. -/
def faultLogged (s t : State) (r : Report) : Prop :=
  let u := (match r.type with | some y => s.logEvent y r.die 0 r.body | none => s).logEvent 0x08 r.die r.code r.body
  t = { u with crown := { u.crown with lastCode := BitVec.ofNat 8 r.code, dross := t.crown.dross } } ∧
  ∀ c, tget 0 t.crown.dross c = if c = 0x1F then min 0xFFFF (tget 0 u.crown.dross c + 1) else tget 0 u.crown.dross c

/-- What a fault does at the crown (R445, R446, R454): it is logged; a running crown's first one, and one during the later part of a restart,
goes to every rank as a notice and is acted on; another is only logged. -/
def faultTaken (s t : State) (r : Report) : Prop :=
  ∃ u : State, faultLogged s u r ∧
  let note : NoticeBody := { epoch := u.crown.epoch, code := BitVec.ofNat 8 r.code, die := BitVec.ofNat 6 r.die
                             detail0 := r.body.setWidth 64, detail1 := (r.body >>> 64).setWidth 64, seq := u.crown.seq }
  let v := u.bcastPrio u.stepNo (.notice note)
  match s.crown.rstate with
  | .running => if s.crown.deferring then t = u else faultActedOn v t
  | .restarting => abortedAgain v t
  | .aborting => t = u
  | .idle => t = u
  | .stalled => s.tracing = false → t = u

/-! ### Steps -/

/-- A step may open (R18, R22, R23): the job runs on this rank, the last outcome is applied, nothing of a boundary waits, and no checkpoint of
the bank to be written still runs, in its hub or on its port. -/
def stepMayOpen (s : State) : Prop :=
  let c := s.crown
  c.job = .active ∧ c.rstate = .running ∧ c.openStep = none ∧ c.deferring = false ∧ c.relabel = false ∧ c.reshard = none ∧
  c.rankNow.toNat < s.mouldSet.ranks ∧ s.power.entering = false ∧ s.power.mitten = false ∧ s.power.waking = false ∧
  ∀ e ∈ s.hubs, (∀ k ∈ e.2.ckpt, c.gen < k.1 + 1) ∧ ∀ p ∈ e.2.ports, ∀ t ∈ p.2.tx, t.kind = 1 → c.gen < t.step + 1

/-- A segment keeps the rules of R524: aligned, in one HBM slice, clear of what the device owns, and clear of every earlier segment. -/
def segmentGood (s : State) (m : Manifest) (i : Nat) : Prop :=
  let g := lget (0, 0, 0) m.segs i
  g.1 % 32 = 0 ∧ inHbmSlice g.1 g.2.2 = true ∧ (∀ r ∈ s.forbidden m.cls, overlaps g.1 g.2.2 r.1 r.2 = false) ∧
  ∀ q ∈ m.segs.take i, overlaps g.1 g.2.2 q.1 q.2.2 = false

/-- A manifest passes every check (R291, R524). -/
def manifestGood (s : State) (m : Manifest) : Prop :=
  let c := lget {} s.mouldSet.classes m.cls
  m.cls ≤ 8 ∧ c.present = true ∧ m.mbs.length = c.mbCount ∧
  (m.cls = 8 → s.chunkCount m ≤ c.chunkCap) ∧ (m.cls ≠ 8 → ∀ l ∈ m.mbs, l ≤ c.maxLen) ∧ m.mbs.sum ≤ c.tokenCap ∧
  m.segs ≠ [] ∧ m.segs.length ≤ 1024 ∧ ∀ i, i < m.segs.length → segmentGood s m i

/-- A step has opened (R18, R72, R117, R140, R269, R285, R298): all that belongs to one step starts anew on every die, and each tile's prologue
lists the risers that do not hold the committed generation. -/
def stepOpened (s t : State) (o : OpenStep) : Prop :=
  t.crown.openStep = some o ∧ t.crown.voted = none ∧ t.crown.held = none ∧ t.crown.lossVals = [] ∧ t.crown.gen = s.crown.gen ∧
  (∀ p, tileCleared (s.tile p) (t.tile p) false ∧ (t.tile p).risers = (s.tile p).risers ∧ (t.tile p).dross = (s.tile p).dross) ∧
  (∀ n, n < 48 → (t.ltile n).prologue = ((t.tileMould n).risers.zipIdx.filter fun r =>
    r.1.prologue != 0x1FFF && tget .empty (s.ltile n).risers r.2 != .final t.readGen).map Prod.snd) ∧
  (∀ h, h < 8 → let x := s.hub h
    let y := t.hub h
    y.lists = [] ∧ y.tokens = [] ∧ y.nodes = [] ∧ y.upds = [] ∧ y.fences = 0 ∧ y.n2 = none ∧ y.nonfinite = false ∧ y.updDone = [] ∧
    y.tags = x.tags ∧ y.slots = x.slots ∧ y.adds = x.adds ∧ y.dross = x.dross ∧ y.ckpt = x.ckpt ∧
    ∀ e, y.ep e = if e ∈ s.ckptEps h then x.ep e else {}) ∧
  t = { s with tiles := t.tiles, hubs := t.hubs, crown := t.crown, power := t.power }

/-- A step has committed on this device (R7, R297, R449, R464, R468, R526): the generation is the step's, every PROV tag of it is FINAL, and
its record is held, logged and sent. -/
def stepCommitted (s t : State) (o : OpenStep) (vote : Bool) : Prop :=
  let g := o.step
  let word := fun (n : Nat) => tget (0 : W64) t.crown.stepLast n
  t.crown.gen = g ∧ t.crown.openStep = none ∧ t.crown.held = none ∧ t.crown.voted = none ∧ t.crown.attempt = 0 ∧
  (∀ k, k ≠ g → tget {} t.crown.feeds k = tget {} s.crown.feeds k) ∧ thas t.crown.feeds g = false ∧ t.crown.seq = s.crown.seq + 1 ∧
  (∀ h k, tget .empty (t.hub h).tags k = if tget .empty (s.hub h).tags k = .prov g then .final g else tget .empty (s.hub h).tags k) ∧
  (∀ p k, tget .empty (t.tile p).risers k = if tget .empty (s.tile p).risers k = .prov g then .final g else tget .empty (s.tile p).risers k) ∧
  (∀ h, t.hub h = { s.hub h with tags := (t.hub h).tags, badSeen := [] }) ∧
  (∀ p, t.tile p = { s.tile p with risers := (t.tile p).risers }) ∧
  word 0 = BitVec.ofNat 64 g ∧ word 1 = o.startNs ∧ word 6 = BitVec.ofNat 64 g ∧
  word 7 = BitVec.ofNat 64 (s.crown.attempts % 2 ^ 32 * 2 ^ 32 + b2n vote * 2 ^ 4 + o.cls) ∧
  t = { s with tiles := t.tiles, hubs := t.hubs, crown := t.crown, link := t.link, power := t.power }

/-- A vote has reached the coordinator (R292, R367 to R369): it counts for the due step until that is decided; the last one decides. -/
def voteTaken (s t : State) (rank step : Nat) (b : VoteBody) : Prop :=
  let due := match s.crown.openStep with | some o => o.step | none => s.crown.gen + 1
  let u : State := { s with crown := { s.crown with
    votes := tset s.crown.votes rank { nonfinite := b.nonfinite, cls := b.cls.toNat } } }
  if s.crown.rankNow.toNat ≠ s.coord ∨ step ≠ due ∨ s.isDecided step = true then t = s
  else match s.crown.openStep with
    | none => t = u
    | some o =>
      if u.crown.votes.length < s.mouldSet.ranks ∨ o.replay = true then t = u
      else match classConflict u.crown.votes with
        | some (a, r, k) => faultTaken (u.recordDecision o.step true 3) t
            { code := 0x11, body := body [(64, o.step), (4, a), (11, r), (4, k)] }
        | none =>
          if s.crown.cancelPending then t = (u.recordDecision o.step true 4).applyOutcome o true 4
          else if ∃ v ∈ u.crown.votes, v.2.nonfinite = true then t = (u.recordDecision o.step true 1).applyOutcome o true 1
          else t = (u.recordDecision o.step false 0).applyOutcome o false 0

/-! ### Boundaries and restarts -/

/-- The tags of a hub are those of a boundary without a step (R297, R313, R377): FINAL in the bank of the generation, EMPTY in the other. -/
def bankTagged (s t : State) (h g : Nat) : Prop :=
  (t.hub h).covered = [] ∧ (t.hub h).badSeen = [] ∧
  ∀ k, tget .empty (t.hub h).tags k = if k % 2 = g % 2 ∧ k / 2 < (s.taggedRanges h).length then .final g else .empty

/-- Memory after each tagged range has been copied from the other bank, in list order (R313). -/
def copiedBank (s : State) (h g : Nat) : Nat → Byte :=
  (s.taggedRanges h).foldl (fun f r =>
    laid f (r.1 + g % 2 * s.bankSpan, (List.range r.2).map fun j => some (f (r.1 + (g + 1) % 2 * s.bankSpan + j)))) (memByteAt s)

/-- A rank's report of a phase (R375): it counts at the coordinator for the phase that runs; the last one opens the next phase, place after
send and the next round's send after place, and every other rank is told. -/
def phaseCounted (s t : State) (rank : Nat) (b : PhaseBody) : Prop :=
  match s.crown.reshard with
  | none => t = s
  | some (_, round, place) =>
    let u : State := { s with crown := { s.crown with phaseDone := addOnce s.crown.phaseDone rank } }
    let next : PhaseBody := if place then { round := BitVec.ofNat 16 (round + 1), place := false }
      else { round := BitVec.ofNat 16 round, place := true }
    if s.crown.rankNow.toNat ≠ s.coord ∨ b.round.toNat ≠ round ∨ b.place ≠ place then t = s
    else if u.crown.phaseDone.length < s.mouldSet.ranks then t = u
    else
      let v : State := { u with crown := { u.crown with phaseDone := [] } }
      t = (v.otherRanks.foldl (fun s r => s.sendPrio r s.crown.gen (.phase next)) v).openPhase
        (if place then round + 1 else round) (!place)

/-- This device may accept a GO from a rank (R451): the rank it last sent READY to, at a restart or before the start. -/
def mayTakeGo (s : State) (src : BitVec 11) : Prop :=
  src = s.crown.leader ∧ ((s.crown.rstate = .aborting ∧ s.crown.order = 3) ∨
    (s.crown.rstate = .idle ∧ s.startup.readySent = true ∧ s.startup.started = false ∧ s.startup.refusal = 0))

/-- The job has been opened (R303, R451 order 11, R457, R518, R525): the crown runs, a job that was suspended stays so, feeds above the
restart's generation are dropped, and the deadline of the next step is in force. -/
def jobOpened (s t : State) : Prop :=
  t.crown.rstate = .running ∧ t.crown.order = 0 ∧ t.crown.job = (if s.crown.job = .suspended then .suspended else .active) ∧
  t.crown.deadline = decide (s.crown.job ≠ .suspended) ∧ t.crown.votes = [] ∧ t.crown.decided = none ∧ t.crown.gen = s.crown.gen ∧
  t.crown.epoch = s.crown.epoch ∧ t.crown.substIn = [] ∧ t.crown.triedRanks = [] ∧ 13 ∈ t.startup.done ∧
  (∀ k, tget {} t.crown.feeds k = if s.crown.epoch ≠ 0 ∧ s.crown.target < k then {} else tget {} s.crown.feeds k) ∧
  (s.crown.epoch ≠ 0 → t.crown.rewound = true) ∧ t.power.floorOn = false ∧
  t.power.soft = (if s.mouldSet.step.softStartMs = 0 then none else some (s.power.pin, s.mouldSet.step.softStartMs, 0)) ∧
  (quiet s → (∀ h, (t.hub h).tags = (s.hub h).tags) ∧ t.mem = s.mem) ∧ (∀ p, t.tile p = s.tile p) ∧ t.flash = s.flash ∧ t.time = s.time

/-- A DONE has reached the leader (R451): it counts; the last one that it waits for opens the job everywhere. -/
def doneTaken (s t : State) (rank : Nat) : Prop :=
  let u : State := { s with crown := { s.crown with dones := addOnce s.crown.dones rank } }
  if s.crown.expectDone = [] then t = s
  else if ∃ r ∈ s.crown.expectDone, r ∉ u.crown.dones then t = u
  else s.crown.reshard = none → jobOpened
    (({ u with crown := { u.crown with expectDone := [], dones := [] } } : State).bcastPrio (s.crown.target + 1) .openJob) t

/-! ### Ports -/

/-- Nothing changed but one port. -/
def onlyPort (s t : State) (h m : Nat) : Prop :=
  (∀ g q, (g ≠ h ∨ q ≠ m) → t.port g q = s.port g q) ∧ (∀ g, t.hub g = { s.hub g with ports := (t.hub g).ports }) ∧ t = { s with hubs := t.hubs }

/-- Link-up is tried on a port (R381, R382, R388): powered, connected, down, and at start-up, in a restart, on a wake, or toward a far end
that sleeps. -/
def trains (s : State) (h m : Nat) : Prop :=
  let p := s.port h m
  s.crownOn = true ∧ 6 ∈ s.startup.done ∧ s.startup.service = false ∧ s.power.mitten = false ∧ s.power.quenched = false ∧
  (s.wire h m).1 = true ∧ p.up = false ∧ p.timedOut = false ∧
  (p.farAsleep = true ∨ s.power.waking = true ∨ 10 ∉ s.startup.done ∨ s.crown.order = 2)

/-- A flit that a port has sent: with its CRC, and the acknowledgement of now (R384, R386, R387). -/
def sentFlit (p : Port) (type : BitVec 4) (seq : BitVec 24) (stream : BitVec 12) (b : List Byte) : Flit :=
  let f : Flit := { type := type, seq := seq, stream := stream, body := b, ackc := p.prioAckDue
                    ack := if p.prioAckDue then p.rxPrio.expected else p.rxData.expected }
  { f with crc := flitCrc f }

/-- A stream that a port sends, after a change (R395, R396); every other stream is as it was. -/
def streamChanged (p : Port) (id : BitVec 12) (f : TxStream → TxStream) : Port :=
  { p with tx := p.tx.map fun t => if t.id = id then f t else t }

/-- A port that has sent a control record in a flit of its own (R384, R385), and one that sends every lane's share of 64 MEASUREs (R405). -/
def withCtrl (p : Port) (c : Ctrl) (lane : Nat) : Port :=
  { p with ctrl := p.ctrl ++ [c], prioAckDue := false
           line := p.line ++ [(lane, sentFlit p 3 0 0 ((Config.ctrlBytes c.fields.1 c.fields.2).take 4096))] }
def withMeasures (p : Port) : Port := (List.range 64).foldl (fun p i => withCtrl p .measure (i % 8)) p

/-- A port that asks for a replay of a class (R390): what is early is dropped, and so is everything but the number asked for. -/
def withReplay (p : Port) (prio : Bool) : Port :=
  if prio then withCtrl { p with rxPrio := { p.rxPrio with discard := true }, prioEarly := [], prioOpen := none } (.replay true p.rxPrio.expected) 0
  else withCtrl { p with rxData := { p.rxData with discard := true, early := [] } } (.replay false p.rxData.expected) 0

/-- Flits held early at a port, of both classes (R389). -/
def earlyFlits (p : Port) : Nat := p.rxData.early.length + (p.prioEarly.filter fun e => e.1.newFlit).length

/-- The replays counted once a class is asked for again from a number (R391). -/
def replaysOf (c : TxClass) (q : BitVec 24) : Nat := if c.lastS = q then c.replays + 1 else 1

/-! ### Time -/

/-- A correction within 500 ppm (R527). -/
def clamped (c : Int) : Int := max (-327) (min 327 c)

/-- The counter steers by a correction from now on (R527), and its log of corrections says so. -/
def steered (t u : Time) (c : Int) : Prop :=
  u = { t with corr := clamped c, corrLog := u.corrLog } ∧ u.corrLog.head? = some (t.ticks, clamped c) ∧
  ∀ e ∈ u.corrLog.tail, e ∈ t.corrLog

/-- The counter has been set in one step (R530). -/
def jumped (t u : Time) (off : Int) : Prop :=
  u.counter = (((t.counter : Int) + off) % ((2 ^ 80 : Nat) : Int)).toNat ∧
  u = { t with counter := u.counter, stepped := true, lastSecond := u.counter / 2 ^ 16 / 1000000000 }

/-- What a measured offset, in units of 2^-16 ns, does to the counter (R530, R531, R535): the first one sets it; then it steers, and 16 in a row
within 100 ns lock it; above 1 ms it is stepped only while no job runs. -/
def offsetTaken (t u : Time) (off : Int) (active : Bool) : Prop :=
  let o : Int := max (-2147483648) (min 2147483647 (off / 65536))
  let near := -6553600 ≤ off ∧ off ≤ 6553600
  let far := off < -65536000000 ∨ 65536000000 < off
  let b := { t with offset := o }
  ∃ v, match t.state with
    | .unset => jumped b v off ∧ u = { v with state := .acquiring, good := 0 }
    | .locked => if far ∧ active = false then jumped b u off else steered b u (Config.servo off t.corr)
    | .acquiring => steered b v (Config.servo off t.corr) ∧
        (near → u = { v with good := t.good + 1, state := if 16 ≤ t.good + 1 then .locked else .acquiring }) ∧
        (¬ near → u = { v with good := 0, state := .acquiring })
    | .holdover => steered b v (Config.servo off t.corr) ∧ (near → u = { v with good := t.good + 1, state := .acquiring }) ∧
        (¬ near → u = { v with good := 0, state := .acquiring })
    | .free => u = b

/-- Whether the time port serves a message of a domain (R528). -/
def portServes (s : State) (m : PtpMsg) : Prop :=
  s.crownOn = true ∧ s.loaded.loaded = true ∧ s.loaded.route.timeSrc = 0x1F ∧ ∃ x, s.loaded.time = some x ∧ m.domain.toNat = x.domain

/-- A message that the time port takes from its chosen master (R528). -/
def mastered (s : State) (m : PtpMsg) : Prop := portServes s m ∧ ∃ b, s.time.master = some (m.source, b)

/-! ### Power -/

/-- The state with another power state of a die, and nothing else changed. -/
def withCuff (s : State) (d : Nat) (c : Cuff) : State :=
  if d < 48 then s.updLtile d fun x => { x with cuff := c } else s.updHub (d - 48) fun x => { x with cuff := c }

/-- A quench has been tripped (R544, R545, R565, R572): the crown counts it and raises the QUENCH fault, whose record names cause and die; where
the dies have power, each of them is told to stop. -/
def tripped (s t : State) (cause die : Nat) : Prop :=
  if s.crownOn = false ∨ s.power.quenching = true ∨ s.power.quenched = true then t = s
  else ∃ (u v w : State) (tj : W64), (tj = Config.freeWord s.free ∨ cause = 3) ∧
    u = { s with free := u.free, power := { s.power with quenching := s.diesOn }, crown := { s.crown with dross := u.crown.dross } } ∧
    (∀ c, tget 0 u.crown.dross c = if c = 0x1E then min 0xFFFF (tget 0 s.crown.dross c + 1) else tget 0 s.crown.dross c) ∧
    faultTaken u v { code := 0x15, body := body [(64, s.stepNo), (3, cause), (6, die), (13, s.power.vin / 10), (8, tj.toNat)] } ∧
    (v.crown.deferring = false → w = v) ∧ (v.crown.deferring = true → v.tracing = false → abortBegun v w true) ∧
    (s.diesOn = false → t = w) ∧
    (s.diesOn = true → t = { w with power := { w.power with quenchCuffs := (List.range 56).map fun d => (d, w.crown.epoch) } })

/-- A threshold that the input falls below, released 0.5 V above it (R536). -/
def below (was : Bool) (v t : Nat) : Bool := decide (v < t ∨ (was = true ∧ v < t + 500))

/-- The means of the last eight input samples, one of them new (R536). -/
def inputMeans (p : Power) (mv ma : Nat) : List (Nat × Nat) × Nat × Nat :=
  let l := (p.samples ++ [(mv, ma)]).drop (p.samples.length + 1 - 8)
  (l, (l.map Prod.fst).sum / l.length, (l.map Prod.snd).sum / l.length)

/-! ### Start-up -/

/-- Start-up may go on (R476, R502): powered and released from reset, in no service mode, not refused, awake and not quenched. -/
def startGoes (s : State) : Prop :=
  s.crownOn = true ∧ s.startup.service = false ∧ s.startup.refusal = 0 ∧ s.power.mitten = false ∧ s.power.quenched = false

/-- The state with more orders of start-up complete. -/
def withOrders (s : State) (l : List Nat) : State := { s with startup := { s.startup with done := l.foldl addOnce s.startup.done } }

/-- The state with a refusal (R476, R499). -/
def refusedWith (s : State) (c : Byte) : State := { s with startup := { s.startup with refusal := c } }

/-- A reset of the device (R477): every die, the crown and memory are as at reset; flash, fuses, pins and the input stay. -/
def resetBy (s t : State) : Prop :=
  t.crown = {} ∧ t.tiles = [] ∧ t.link = {} ∧ t.time = {} ∧ t.loaded = {} ∧ t.mem = [] ∧ t.memErr = [] ∧ t.poison = [] ∧
  t = { t with pending := s.pending, flash := s.flash, flash0 := s.flash0, flash1 := s.flash1, journal := s.journal, keySlots := s.keySlots
               revoked := s.revoked, idKey := s.idKey, powerUps := s.powerUps, pwrOk := s.pwrOk, thermLow := s.thermLow }

/-- A die of a channel whose direction erred, by the channel's far or near end (R418, R424, R446). -/
def errsAt (s : State) (die h c : Nat) (rx : Bool) : Prop :=
  hasChan h c = true ∧ (if rx then die = 48 + h else die ≠ 48 + h ∧ ∃ n, s.chanDie h c false = some (die, n))

/-! ### The host's link -/

/-- The ACK of a frame (R471, R513): PARAM0 holds the SEQ of the last event unless the command answers a value there. -/
def ackOf (s : State) (f : Frame) (r : Reply) : DevFrame :=
  { type := 0x80, tag := f.tag, status := r.status, handle := BitVec.ofNat 32 r.handle, payload := r.payload
    param0 := match r.param0 with | some v => BitVec.ofNat 64 v | none => s.crown.seq }

/-- What a command does: the state that it finds, its reply, and the state that it leaves. -/
abbrev Effect := State → Reply → State → Prop

/-- Only a status is answered. -/
def answers (st : Byte) : Effect := fun s r t => r = { status := st } ∧ t = s

/-- A flit on the host link after n others (R384, R508): stream 0, and its CRC. -/
def onYhl (n : Nat) (type : BitVec 4) (seq : BitVec 24) (body : List Byte) : Flit :=
  let f : Flit := { type := type, seq := seq, ack := Config.yhlAck n, body := body }
  { f with crc := flitCrc f }

/-- The bytes of a device frame (R510): four header words and the payload, padded with zeros to a multiple of 8. -/
def frameBytes (f : DevFrame) : List Byte :=
  let n := f.payload.length
  leBytes 8 (packFields [(32, n), (8, f.flags.toNat), (8, f.status.toNat), (8, f.tag.toNat), (8, f.type.toNat)]) ++
  leBytes 8 (packFields [(32, if n = 0 then 0 else (crc32c f.payload).toNat), (32, f.handle.toNat)]) ++
  leBytes 8 f.param0.toNat ++ leBytes 8 f.param1.toNat ++ f.payload ++ List.replicate ((8 - n % 8) % 8) 0

/-- What a host frame gets (R471, R509 to R513): nothing without a link; its ACK again if it is one of the last eight taken; SEQUENCE, BUSY or CRC
without its effect; else it is taken, the expected tag advances, and it runs where its common fields hold. -/
def hosted (f : Frame) (flags : Byte) (run : Effect) (s t : State) : Prop :=
  let sent := fun (u : State) (a : DevFrame) => ({ u with link := ({ u.link with acks := u.link.acks ++ [a] } : Link).put a } : State)
  let good := f.status = 0 ∧ (f.flags &&& ~~~flags) = 0 ∧ f.payload.length ≤ 65536
  if s.link.up = false ∨ s.crownOn = false then t = s
  else match s.link.recent.lookup f.tag with
    | some a => t = sent s a
    | none =>
      if f.tag ≠ s.link.expected then t = sent s (ackOf s f { status := 0x02 })
      else if 8 ≤ s.link.outstanding then t = sent s (ackOf s f { status := 0x01 })
      else if f.fcrc ≠ (if f.payload = [] then 0 else crc32c f.payload) then t = sent s (ackOf s f { status := 0x08 })
      else
        let v : State := { s with link := { s.link with expected := f.tag + 1 } }
        ∃ (r : Reply) (u : State), (good → run v r u) ∧ (¬ good → answers 0x04 v r u) ∧
          let l := u.link.recent ++ [(f.tag, ackOf u f r)]
          t = sent { u with link := { u.link with recent := l.drop (l.length - 8) } } (ackOf u f r)

/-- A command that service mode or an ended job does not serve is answered STATE (R502, R518). -/
def servedIn (ended service : Bool) (run : Effect) : Effect := fun s r t =>
  if (s.startup.service = true ∧ service = false) ∨ (s.crown.job = .ended ∧ ended = false) then answers 0x05 s r t else run s r t

/-- A long operation takes the next handle (R516); the seventeenth at once is BUSY. -/
def opensOp (op : LongOp) (also : Nat → State → State → Prop) : Effect := fun s r t =>
  let h := s.crown.nextHandle
  if 16 ≤ s.crown.ops.length then answers 0x01 s r t
  else r = { handle := h } ∧
    also h { s with crown := { s.crown with ops := tset s.crown.ops h op, nextHandle := h + 1 } } t

/-- The state with other operations in progress. -/
def withOps (s : State) (l : Tbl LongOp) : State := { s with crown := { s.crown with ops := l } }

/-- An export is paused or goes on (R518). -/
def pauses (h : Nat) (p : Bool) : Effect := fun s r t =>
  match tget .job s.crown.ops h with
  | .exporting src left _ => r = {} ∧ t = withOps s (tset s.crown.ops h (.exporting src left p))
  | _ => answers 0x05 s r t

/-- The host is told where its feed goes on (R513). -/
def rewound (s : State) (g : Nat) : State :=
  ({ s with crown := { s.crown with rewound := true } } : State).sendFrame { type := 0x84, param0 := BitVec.ofNat 64 g }

/-- A replay ends on the host's word (R465, R518): its work is dropped, its COMPLETE sent, and a feed that was sent again for it is dropped with
it. -/
def replayEnded (s t : State) (h : Nat) (st : Byte) : Prop :=
  let again := !s.mouldSet.step.replayOnRestart
  ∃ w : State, (s.tracing = false → w = s) ∧
    (s.tracing = true → (∀ p, tileCleared (s.tile p) (w.tile p) true ∧ (w.tile p).risers = (s.tile p).risers) ∧
      (∀ k, (w.hub k).lists = [] ∧ (w.hub k).upds = [] ∧ (w.hub k).eps = [] ∧ (w.hub k).slots = (s.hub k).slots ∧
        provDropped (s.hub k).tags (w.hub k).tags) ∧ w = { s with tiles := w.tiles, hubs := w.hubs }) ∧
    let z : State := ({ w with crown := { w.crown with
      openStep := if s.tracing then none else w.crown.openStep, replayFeed := false
      keptFeed := if again then none else w.crown.keptFeed } } : State).complete h st 0 0
    t = if again then rewound z z.nextFeed else z

/-! ### Images and feed -/

/-- The pieces of at most 1 MiB that a range is sent in (R519): hub, address and bytes. -/
def piecesOf (h a n : Nat) : List (Nat × Nat × Nat) :=
  (List.range ((n + 1048575) / 1048576)).map fun i => (h, a + 1048576 * i, min 1048576 (n - 1048576 * i))

/-- The ranges of a hub that an export of a source sends (R519). -/
def sourceRanges (s : State) (src h : Nat) : List (Nat × Nat) :=
  let p := lget {} s.loaded.placement.hubs h
  if src = 0 then s.taggedRanges h else if src = 1 then (if s.newestCopy.isSome then [(0, p.partner.2)] else []) else [(0, p.trace.2)]

/-- Where the bytes of an export's chunk lie (R519). -/
def sourceBase (s : State) (src h : Nat) : Nat :=
  let p := lget {} s.loaded.placement.hubs h
  if src = 0 then s.crown.gen % 2 * s.bankSpan
  else if src = 1 then p.partner.1 + (if (s.hub h).slot1.state = 2 ∧ s.newestCopy = some (s.hub h).slot1.gen then p.partner.2 else 0)
  else p.trace.1

/-- The generation that an export of the committed bank carries (R519). -/
def exportGen (s : State) (src : Nat) : W64 := if src = 0 then BitVec.ofNat 64 s.crown.gen else 0

/-- A chunk's frames have been sent (R510, R513, R519): its header and data, in CKPT_DATA frames of at most 65,536 bytes, the last of the image
marked. -/
def chunkSent (s t : State) (handle : W32) (image : List Byte) (ends : Bool) : Prop :=
  ∃ fs : List DevFrame, fs.flatMap DevFrame.payload = image ∧ t = fs.foldl State.sendFrame s ∧
    ∀ (i : Nat) (g : DevFrame), fs[i]? = some g → g.payload ≠ [] ∧ g.payload.length ≤ 65536 ∧
      g = { type := 0x86, handle := handle, payload := g.payload, flags := if ends = true ∧ i + 1 = fs.length then 1 else 0 }

/-- A manifest as a FEED frame's payload spells it (R522). -/
def manifestOf (g : Nat) (b : List Byte) (m : Manifest) : Prop :=
  let w := fun (i : Nat) => leNat ((b.drop (8 * i)).take 8)
  let k := w 1 / 2 ^ 16 % 2 ^ 13
  let n := w 1 / 2 ^ 32 % 2 ^ 16
  b.length = 8 * (18 + k + 2 * n) ∧ w 0 = g ∧ m.raw = b ∧ m.cls = w 1 % 16 ∧ m.params = (List.range 16).map (fun i => BitVec.ofNat 64 (w (2 + i))) ∧
  m.mbs = (List.range k).map (fun i => w (18 + i) % 2 ^ 32) ∧
  m.segs = (List.range n).map fun i => let o := 18 + k + 2 * i
    (w o % 2 ^ 42, BitVec.ofNat 32 (w (o + 1) / 2 ^ 32), w (o + 1) % 2 ^ 32)

/-- A replay on the host's word is in progress (R465). -/
def replaying (s : State) : Bool := s.crown.ops.any fun o => match o.2 with | .replay _ _ => true | _ => false

/-- The status that refuses feed for a step (R465, R468, R523). -/
def feedRefusal (s : State) (g : Nat) : Option Byte :=
  let c := s.crown.gen
  let one := s.mouldSet.step.replayOnRestart || replaying s
  if 11 ∉ s.startup.done ∨ s.power.mitten = true ∨ s.power.quenched = true then some 0x05
  else if g = c ∧ replaying s = true ∧ s.crown.openStep = none then none
  else if g ≤ c then some 0x09
  else if g = c + 1 ∨ (g = c + 2 ∧ one = false) then none
  else some 0x01

/-- A replay that has its feed has begun, or has been refused because its digest is not the step record's (R465). -/
def replayTried (s t : State) : Prop :=
  match s.replayOp, s.crown.openStep, s.crown.keptFeed with
  | some (h, ramp), none, some (_, f) => ∀ m, f.manifest = some m →
    let d := crc64 (m.raw ++ m.segs.flatMap fun g => readBytes s.mem g.1 g.2.2)
    let len := (lget {} s.mouldSet.classes m.cls).maxLen
    let o : OpenStep := { step := s.crown.gen, cls := m.cls, mapping := s.crown.mapping, replay := true, testRamp := ramp
                          chunks := if m.cls = 8 ∧ len ≠ 0 then (m.mbs.map fun l => (l + len - 1) / len).sum else 0
                          startNs := BitVec.ofNat 64 (max s.crown.lastTime.toNat (s.time.ns % 2 ^ 64)) }
    ((∃ i, i < m.segs.length ∧ tget false f.complete i = false) → t = s) ∧
    ((∀ i, i < m.segs.length → tget false f.complete i = true) →
      (d ≠ tget 0 s.crown.stepLast 3 → replayEnded s t h 0x0D) ∧
      (d = tget 0 s.crown.stepLast 3 → stepOpened { s with crown := { s.crown with batchDigest := d, replayFeed := true } } t o))
  | _, _, _ => t = s

/-- A replay mismatch or its absence has been logged (R465, R472). -/
def replayLogged (s : State) (d : W64) : State := s.logEvent 0x0C 56 0 (body [(64, d.toNat), (64, s.crown.genDigest.toNat)])

/-! ### Registers -/

/-- The registers that the host may write (R521, R534). -/
def hostMayWrite (a : Nat) : Prop :=
  a ∈ [0x10, 0x28, 0x38, 0x50, 0x60, 0x68].map (0x3F000000000 + ·) ∨
  (∃ h, h < 8 ∧ (a ∈ [0x18, 0x20, 0x28, 0x30, 0x38, 0x40, 0x58, 0x60, 0x68].map (0x3F100000000 + 0x1000000 * h + ·) ∨
    ∃ c, c < 14 ∧ a = 0x3F100000000 + 0x1000000 * h + 0x80 + 8 * c)) ∨
  (∃ n, n < 48 ∧ a ∈ [0x00, 0x08, 0x10, 0x18, 0x60, 0x68, 0x70, 0x78].map (0x3F200000000 + 0x100000 * n + ·))

/-- The state once some consecutive registers have been read in ascending order (R521). -/
def afterReads (s : State) (a n : Nat) : State := (List.range n).foldl (fun w j => w.readEffect (a + 8 * j)) s

/-- READ_REG (R515, R521): the values, little-endian, or the first register in the range that has none. -/
def readsRegs (f : Frame) : Effect := fun s r t =>
  let a := f.param0.toNat
  let n := f.param1.toNat
  let now := fun i => (afterReads s a i).readReg (a + 8 * i)
  (n = 0 ∨ 512 < n → answers 0x04 s r t) ∧
  (0 < n → n ≤ 512 →
    (∀ l : List Nat, l.length = n → (∀ i, i < n → now i = .value (lget 0 l i)) →
      r = { payload := l.flatMap fun v => leBytes 8 v } ∧ t = afterReads s a n) ∧
    (∀ i, i < n → (∀ j, j < i → ∃ v, now j = .value v) →
      (now i = .asleep → answers 0x0C s r t) ∧ (now i = .bad → answers 0x07 s r t)))

/-- WRITE_REG (R521): the write of one register, DENIED outside the list, ASLEEP for a hub's or a tile's where they have no power. -/
def writesReg (f : Frame) : Effect := fun s r t =>
  let a := f.param0.toNat
  (¬ hostMayWrite a → answers 0x06 s r t) ∧
  (hostMayWrite a → a ≥ 0x3F100000000 → s.asleep = true → answers 0x0C s r t) ∧
  (hostMayWrite a → (a < 0x3F100000000 ∨ s.asleep = false) → r = {} ∧ s.writeReg a f.param1.toNat = some t)

/-- A sticky bit after a write to its register (R521). -/
def stays (old : Bool) (v i : Nat) : Bool := old && !v.testBit i

/-! ### Sleep and service -/

/-- A service operation, outside service mode answered STATE (R520). -/
def inService (run : Effect) : Effect := fun s r t => if s.startup.service = true then run s r t else answers 0x05 s r t

/-- An operation of its own kind that runs, if one does, ends OK (R516, R552, R556). -/
def opEnded (s : State) (op : LongOp) : State :=
  match s.crown.ops.find? (fun o => o.2 == op) with
  | some o => s.complete o.1 0x00 0 0
  | none => s

/-- Bytes 0 to 255 of the attestation report, as (offset, bytes) (R501). -/
def reportRows (s : State) (nonce : List Byte) : List (Nat × List Byte) :=
  let x := s.startup
  let v := s.versions
  [(0, leBytes 4 0x41540059), (4, leBytes 2 1), (6, [BitVec.ofNat 8 (b2n x.service + 2 * b2n x.spare + 4 * b2n x.imported), 0]),
   (8, leBytes 8 Config.serial.toNat), (16, nonce),
   (48, match x.header with | some h => beBytes 64 h.digest.toNat | none => List.replicate 64 0),
   (112, [x.keySlot.setWidth 8]), (113, [x.refusal]), (114, leBytes 2 (x.rank.toNat + 2 ^ 11 * x.site.toNat)), (116, leBytes 1 Config.stepping.toNat),
   (117, leBytes 1 s.orderNow), (118, [0, 0]), (120, (leBytes 5 v).reverse), (125, [0, 0, 0]), (128, leBytes 1 Config.crownRevision.toNat),
   (129, (List.range 8).map fun h => (s.hub h).revision), (137, (List.range 56).map fun p => (s.tile p).revision), (193, List.replicate 7 0),
   (200, leBytes 8 s.crown.gen), (208, leBytes 8 (s.time.ns % 2 ^ 64)), (216, List.replicate 40 0)]

/-! ### The whole block -/

/-- The registers whose reset value is not zero (R115, R258, R441, R443, R472): window, period and enable of fettling, rails, ramp code, and channels
in training without a parity group. -/
def resetWord : RegAt → Nat
  | .crown off => if off = 0x28 then 60 else 0
  | .hub _ off => if off = 0x20 then 0x1801 else if off = 0x58 then 0x0F000000
      else if 0x80 ≤ off ∧ off < 0xF0 then 0xFF00000000000004 else 0
  | .tile _ off => if off = 0x18 then 0x0F000000 else if 0x20 ≤ off ∧ off < 0x40 then 0x10000 else 0

end Sys2Proof.Machine.Claims
end

