-- ==== Sys2Proof/Certificates/Slice0/Obligations.lean ====
section
/-! DEFINITION. The statements for the provers, in the terms of the meanings and of Safety.lean: each is one
`def Obligations.<Name> : Prop`. -/


open Sys2Proof Sys2Proof.Machine Sys2Proof.Machine.Claims

/-- R181: the vector integer class: what IADD to VLANE leave in the destination, on the active lanes, modulo 2^32 and with the low 5 bits of
src2 as a shift count; ICMP's predicate; that the class has FMT = I32 and raises no condition. Nothing else of the package changes. -/
def Obligations.IntegerLanes : Prop :=
  (∀ r ∈ intRows, ∀ i s e, issued r.1 (fun _ => useInt) i s = some e → ∃ t, exec (r.2.1 i) s = .next t ∧
    vectorIs i e t (fun l => r.2.2 (e.lane e.w.s1 l) (e.lane e.w.s2 l)) ∧ notes i e t false false ∧
    keepsSPD i e t ∧ goesOn i e t ∧ onlyContext i e t) ∧
  (∀ i s e, issued 0x2C (fun _ => { dst := .vec, s1 := .lanes, fmts := [3] }) i s = some e → ∃ t, exec (.vlane i) s = .next t ∧
    vectorIs i e t (fun l => BitVec.ofNat 32 l + e.lane e.w.s1 l) ∧ notes i e t false false ∧
    keepsSPD i e t ∧ goesOn i e t ∧ onlyContext i e t) ∧
  (∀ i s e, issued 0x2B (fun w => { dst := .pred, s1 := .lanes, s2 := .lanes, mod := 0xF00000
                                    fmts := if kindOk (bits w.mod 23 20) then [3] else [] }) i s = some e →
      ∃ t v b, exec (.icmp i) s = .next t ∧ predicateIs i e t v ∧
      (∀ l, l < 16 → intCompare (bits e.w.mod 23 20) 32 (e.lane e.w.s1 l).toNat (e.lane e.w.s2 l).toNat = some (b l)) ∧
      lanesOver e (readPred e.x e.w.dst) b v ∧ notes i e t false false ∧ goesOn i e t ∧ onlyContext i e t) ∧
  (∀ (u : Use) (w : Word), u.fmts = [3] → encodingCauses u w = [] → w.fmt = 3)

/-- R177 to R179, R184 to R189: what the floating-point instructions on lanes, the special functions and the derivatives leave in the
destination; the conditions of the active lanes, and only of those, reach the launch (R133, R165). VSEL and VMOV copy bits unchanged. -/
def Obligations.FloatLanes : Prop :=
  (∀ r ∈ floatRows, ∀ i s e, issued r.1 r.2.1 i s = some e → ∃ t, exec (r.2.2.1 i) s = .next t ∧
    vectorIs i e t (fun l => BitVec.ofNat 32 (r.2.2.2 e l).bits) ∧
    notes i e t (anyLane e fun l => (r.2.2.2 e l).inv) (anyLane e fun l => (r.2.2.2 e l).ovf) ∧
    keepsSPD i e t ∧ goesOn i e t ∧ onlyContext i e t) ∧
  (∀ i s e, issued 0x19 (fun _ => { dst := .vec, s1 := .lanes, s2 := .lanes, s3 := .pred }) i s = some e →
    ∃ t, exec (.vsel i) s = .next t ∧
      vectorIs i e t (fun l => if (readPred e.x e.w.s3).getLsbD l then e.lane e.w.s1 l else e.lane e.w.s2 l) ∧
      keepsSPD i e t ∧ goesOn i e t ∧ onlyContext i e t) ∧
  (∀ i s e, issued 0x1A (fun _ => { dst := .vec, s1 := .lanes }) i s = some e → ∃ t, exec (.vmov i) s = .next t ∧
      vectorIs i e t (fun l => e.lane e.w.s1 l) ∧ keepsSPD i e t ∧ goesOn i e t ∧ onlyContext i e t)

/-- R180: the compare kinds. VCMP writes the active lanes of one predicate and takes kinds 0x0 to 0x5 only; a reserved kind is ILLEGAL_FIELD in
VCMP, ICMP and SCMP; +0 equals -0, and every kind but NE is false where either operand is NaN; no compare raises a condition. -/
def Obligations.Compares : Prop :=
  (∀ i s e, issued 0x18 (fun w => { dst := .pred, s1 := .lanes, s2 := .lanes, mod := if bits w.mod 23 20 ≤ 5 then 0xF0000F else 0xF }) i s
      = some e → ∃ t v, exec (.vcmp i) s = .next t ∧ predicateIs i e t v ∧
      lanesOver e (readPred e.x e.w.dst) (fun l => fpCompare (bits e.w.mod 23 20) (e.num 0 l) (e.num 1 l)) v ∧
      notes i e t false false ∧ goesOn i e t ∧ onlyContext i e t) ∧
  (∀ i s e, issued 0x3B useScmp i s = some e → ∃ t, exec (.scmp i) s = .next t ∧ notes i e t false false) ∧
  (∀ (a b : Machine.Num), a ≠ .nan → b ≠ .nan → let c := a.cmp b
    (fpCompare 0 a b = true ↔ c = 0) ∧ (fpCompare 1 a b = true ↔ c ≠ 0) ∧ (fpCompare 2 a b = true ↔ c < 0) ∧
    (fpCompare 3 a b = true ↔ c ≤ 0) ∧ (fpCompare 4 a b = true ↔ 0 < c) ∧ (fpCompare 5 a b = true ↔ 0 ≤ c)) ∧
  (∀ (k : Nat) (a b : Machine.Num), a = .nan ∨ b = .nan → (fpCompare k a b = true ↔ k = 1)) ∧
  (∀ e f : Int, (Machine.Num.fin true 0 e).cmp (.fin false 0 f) = 0 ∧ (Machine.Num.fin false 0 e).cmp (.fin true 0 f) = 0) ∧
  (∀ (n k : Nat) (a b : BitVec n), 0 < n → let r := intCompare k n a.toNat b.toNat
    (k = 0x0 → r = some (decide (a = b))) ∧ (k = 0x1 → r = some (decide (a ≠ b))) ∧ (k = 0x2 → r = some (a.slt b)) ∧
    (k = 0x3 → r = some (a.sle b)) ∧ (k = 0x4 → r = some (b.slt a)) ∧ (k = 0x5 → r = some (b.sle a)) ∧ (k = 0xA → r = some (a.ult b)) ∧
    (k = 0xB → r = some (a.ule b)) ∧ (k = 0xC → r = some (b.ult a)) ∧ (k = 0xD → r = some (b.ule a)) ∧
    ((6 ≤ k ∧ k ≤ 9) ∨ 0xE ≤ k → r = none)) ∧
  (∀ w : Word, w.mod < 2 ^ 24 → let k := w.mod / 2 ^ 20
    (5 < k → illegalField ∈ encodingCauses { dst := .pred, s1 := .lanes, s2 := .lanes, mod := if bits w.mod 23 20 ≤ 5 then 0xF0000F else 0xF } w) ∧
    ((6 ≤ k ∧ k ≤ 9) ∨ 0xE ≤ k → illegalField ∈ encodingCauses { dst := .pred, s1 := .lanes, s2 := .lanes, mod := 0xF00000
                                                                 fmts := if kindOk (bits w.mod 23 20) then [3] else [] } w ∧
      illegalField ∈ encodingCauses (useScmp w) w))

/-- R182: the scalar class: what SADD to SCMP leave in the destination, modulo 2^64, with B as FMT selects it and the low 6 bits of B as a shift
count; that PRED names no predicate there, and that any other FMT is ILLEGAL_FIELD. -/
def Obligations.Scalars : Prop :=
  (∀ r ∈ scalarRows, ∀ i s e, issued r.1 useScalar i s = some e → ∃ t, exec (r.2.1 i) s = .next t ∧
    scalarIs i e t (r.2.2 (e.scalar e.w.s1) (operandB e 24)) ∧ goesOn i e t ∧ onlyContext i e t) ∧
  (∀ i s e, issued 0x39 (fun _ => { dst := .sreg, fmts := [1], mod := 0xFFFFFF, pred := false }) i s = some e →
    ∃ t, exec (.smovi i) s = .next t ∧ scalarIs i e t ((BitVec.ofNat 24 e.w.mod).signExtend 64) ∧
      goesOn i e t ∧ onlyContext i e t) ∧
  (∀ i s e, issued 0x3A (fun _ => { dst := .sreg, fmts := [1], mod := 0xFFFFFF, pred := false }) i s = some e →
    ∃ t, exec (.slui i) s = .next t ∧ scalarIs i e t ((e.scalar e.w.dst <<< 24) ||| BitVec.ofNat 64 e.w.mod) ∧
      goesOn i e t ∧ onlyContext i e t) ∧
  (∀ i s e, issued 0x3B useScmp i s = some e → ∃ t b, exec (.scmp i) s = .next t ∧
      intCompare (bits e.w.mod 23 20) 64 (e.scalar e.w.s1).toNat (operandB e 20).toNat = some b ∧
      predicateIs i e t (if b then 0xFFFF else 0) ∧ goesOn i e t ∧ onlyContext i e t) ∧
  (∀ w : Word, (w.fmt ≠ 0 ∧ w.fmt ≠ 1) ∨ w.pred ≠ 0 ∨ w.neg = true →
    illegalField ∈ encodingCauses (useScalar w) w ∧ illegalField ∈ encodingCauses (useScmp w) w) ∧
  (∀ w : Word, w.fmt ≠ 1 ∨ w.pred ≠ 0 ∨ w.neg = true →
    illegalField ∈ encodingCauses { dst := .sreg, fmts := [1], mod := 0xFFFFFF, pred := false } w)

/-- R183: the predicate class: what it leaves in the whole destination, whatever PRED would name, and that it has FMT = 0x0. -/
def Obligations.Predicates : Prop :=
  (∀ r ∈ ([(0x40, .pand, fun a b => a &&& b), (0x41, .por, fun a b => a ||| b), (0x42, .pxor, fun a b => a ^^^ b)] :
      List (Nat × (Issue → Instr) × (W16 → W16 → W16))), ∀ i s e, issued r.1 (fun _ => usePred2) i s = some e →
    ∃ t, exec (r.2.1 i) s = .next t ∧ predicateIs i e t (r.2.2 (readPred e.x e.w.s1) (readPred e.x e.w.s2)) ∧
      goesOn i e t ∧ onlyContext i e t) ∧
  (∀ r ∈ ([(0x43, .pnot, fun a => ~~~a), (0x45, .pmov, fun a => a)] : List (Nat × (Issue → Instr) × (W16 → W16))), ∀ i s e,
    issued r.1 (fun _ => { dst := .pred, s1 := .pred, pred := false }) i s = some e →
    ∃ t, exec (r.2.1 i) s = .next t ∧ predicateIs i e t (r.2.2 (readPred e.x e.w.s1)) ∧ goesOn i e t ∧ onlyContext i e t) ∧
  (∀ i s e, issued 0x44 (fun _ => { dst := .pred, mod := 0xFFFF, pred := false }) i s = some e →
    ∃ t, exec (.pset i) s = .next t ∧ predicateIs i e t (BitVec.ofNat 16 e.w.mod) ∧ goesOn i e t ∧ onlyContext i e t) ∧
  (∀ (u : Use) (w : Word), u.fmts = [0] → u.pred = false → encodingCauses u w = [] → w.fmt = 0 ∧ w.pred = 0 ∧ w.neg = false)

/-- R190 to R192: HSUM, HMAX, HMIN and HDOT reduce the list of their registers with the fixed tree; the result goes to a scalar with
zero above, or to a vector's active lanes, and the steps' conditions to the launch. -/
def Obligations.Horizontals : Prop :=
  ∀ r ∈ horizontalRows, ∀ i s e, issued r.1 (useH r.2.1) i s = some e → ∃ t v, exec (r.2.2.1 i) s = .next t ∧
    Tree (r.2.2.2.1 e) (r.2.2.2.2 e) v ∧
    (if e.w.dst < 32 then vectorIs i e t (fun _ => BitVec.ofNat 32 v.bits) ∧ keepsSPD i e t
      else scalarIs i e t ((BitVec.ofNat 32 v.bits).setWidth 64)) ∧
    notes i e t v.inv v.ovf ∧ goesOn i e t ∧ onlyContext i e t

/-- R200, R184 to R186: DRAW, VDRAW16, VDRAW32, DMASK and CVTSR take their values from draw c on, c the counter before, and advance it
by their count, whatever the predicate; MXSCALE (R187) writes the scale byte of the active lanes of two registers. -/
def Obligations.Draws : Prop :=
  (∀ i s e, issued 0xC0 (fun _ => { dst := .sreg, pred := false }) i s = some e → e.x.draws.toNat + 1 ≤ 0xFFFFFFFF →
    ∃ t, exec (.draw i) s = .next t ∧ (∀ r, tget 0 (ctxAt t i).s r = if r = e.w.dst - 32 then e.draw e.x.draws.toNat else tget 0 e.x.s r) ∧
      (ctxAt t i).v = e.x.v ∧ (ctxAt t i).p = e.x.p ∧ drew i e t 1 ∧ goesOn i e t ∧ onlyContext i e t) ∧
  (∀ i s e, issued 0xC1 (fun _ => { dst := .vec }) i s = some e → e.x.draws.toNat + 4 ≤ 0xFFFFFFFF →
    ∃ t, exec (.vdraw16 i) s = .next t ∧
      vectorIs i e t (fun l => BitVec.ofNat 32 (slice (e.draw (e.x.draws.toNat + l / 4)) (l % 4))) ∧
      (ctxAt t i).s = e.x.s ∧ (ctxAt t i).p = e.x.p ∧ drew i e t 4 ∧ goesOn i e t ∧ onlyContext i e t) ∧
  (∀ i s e, issued 0xC2 (fun _ => { dst := .vec }) i s = some e → e.x.draws.toNat + 8 ≤ 0xFFFFFFFF →
    ∃ t, exec (.vdraw32 i) s = .next t ∧
      vectorIs i e t (fun l => if l % 2 = 0 then (e.draw (e.x.draws.toNat + l / 2)).setWidth 32
        else (e.draw (e.x.draws.toNat + l / 2) >>> 32).setWidth 32) ∧
      (ctxAt t i).s = e.x.s ∧ (ctxAt t i).p = e.x.p ∧ drew i e t 8 ∧ goesOn i e t ∧ onlyContext i e t) ∧
  (∀ i s e, issued 0xC3 (fun _ => { dst := .pred, s1 := .scalar }) i s = some e → e.x.draws.toNat + 4 ≤ 0xFFFFFFFF →
    ∃ t v, exec (.dmask i) s = .next t ∧
      lanesOver e (readPred e.x e.w.dst) (fun l => decide
        (slice (e.draw (e.x.draws.toNat + l / 4)) (l % 4) < (e.scalar e.w.s1).toNat % 2 ^ 17)) v ∧
      (∀ c, 48 < c → c < 56 → readPred (ctxAt t i) c = if c = e.w.dst then v else readPred e.x c) ∧
      (ctxAt t i).v = e.x.v ∧ (ctxAt t i).s = e.x.s ∧ drew i e t 4 ∧ goesOn i e t ∧ onlyContext i e t) ∧
  (∀ i s e, issued 0x52 useCvt i s = some e → e.x.draws.toNat + 4 ≤ 0xFFFFFFFF →
    ∃ t, exec (.cvtsr i) s = .next t ∧
      vectorIs i e t (fun l => BitVec.ofNat 32 (e.cvtLane (.sr (slice (e.draw (e.x.draws.toNat + l / 4)) (l % 4))) l).bits) ∧
      (ctxAt t i).s = e.x.s ∧ (ctxAt t i).p = e.x.p ∧ drew i e t 4 ∧ goesOn i e t ∧ onlyContext i e t) ∧
  (∀ i s e, issued 0x51 (fun w => { dst := .sreg, s1 := .vec, mod := 0x80003, n := 2
                                    fmts := if ((Fmt.ofCode w.fmt).getD .f32).isMx then [w.fmt] else [] }) i s = some e →
    ∃ t, exec (.mxscale i) s = .next t ∧ goesOn i e t ∧ onlyContext i e t ∧
      scalarIs i e t (BitVec.ofNat 64 (mxScaleByte e.dstFmt (bit e.w.mod 19)
        ([0, 1].flatMap fun j => ((List.range 16).filter e.active).map fun l =>
          decode (if bits e.w.mod 1 0 = 0 then .f32 else srcFmt .f32 (bits e.w.mod 1 0)) (laneAt e.x (e.w.s1 + j) l).toNat))))

/-- R193, R195: LLD, LGATH and PLD deliver what the local store's decodes give, and change no byte of it. -/
def Obligations.LocalLoads : Prop :=
  (∀ i s e, issued 0x80 (fun _ => { dst := .vec, s1 := .scalar, fmts := lsFmts, mod := 0xFFFFFF }) i s = some e →
    lsCauses e.lsAddr (lsBytes e.fmt) (lsAlign e.fmt) = [] → (lsRead e.cl e.lsAddr (lsBytes e.fmt)).bad = none →
    ∃ t, exec (.lld i) s = .next t ∧
      let n := lsRead e.cl e.lsAddr (lsBytes e.fmt)
      vectorIs i e t (fun l => BitVec.ofNat 32 ((leNat n.bytes >>> (e.fmt.width * l)) % 2 ^ e.fmt.width)) ∧
      keepsSPD i e t ∧ goesOn i e t ∧ onlyContext i { e with s := e.s.tileDross (e.s.phys i.tile) 0x04 n.fixed } t) ∧
  (∀ i s e, issued 0x82 (fun _ => { dst := .vec, s1 := .scalar, s2 := .lanes, fmts := wideFmts }) i s = some e → e.idxLsCauses = [] →
    (∀ l, l < 16 → e.active l = true → (lsRead e.cl (e.idxAddr l) (elemSize e.w.fmt)).bad = none) →
    ∃ t, exec (.lgath i) s = .next t ∧
      vectorIs i e t (fun l => BitVec.ofNat 32 (leNat (lsRead e.cl (e.idxAddr l) (elemSize e.w.fmt)).bytes)) ∧
      keepsSPD i e t ∧ goesOn i e t ∧
      (let n := e.lanes.foldl (fun n l => n + (lsRead e.cl (e.idxAddr l) (elemSize e.w.fmt)).fixed) 0
       onlyContext i { e with s := e.s.tileDross (e.s.phys i.tile) 0x04 n } t)) ∧
  (∀ i s e, issued 0x84 (fun _ => { dst := .pred, s1 := .scalar, mod := 0xFFFFFF, pred := false }) i s = some e →
    lsCauses e.lsAddr 2 2 = [] → (lsRead e.cl e.lsAddr 2).bad = none →
    ∃ t, exec (.pld i) s = .next t ∧ predicateIs i e t (BitVec.ofNat 16 (leNat (lsRead e.cl e.lsAddr 2).bytes)) ∧
      goesOn i e t ∧ onlyContext i { e with s := e.s.tileDross (e.s.phys i.tile) 0x04 (lsRead e.cl e.lsAddr 2).fixed } t)

/-- R193, R195, R243: LST, LSCAT and PST change the bytes of their active lanes, in ascending lane order, and no other byte of the
local store as a read delivers it; no other cluster, tile, hub or memory byte changes. -/
def Obligations.LocalStores : Prop :=
  ∀ r ∈ storeRows, ∀ i s e, issued r.1 r.2.1 i s = some e → r.2.2.2.1 e = [] → (∀ w ∈ r.2.2.2.2 e, writable e.cl w) →
    ∃ t, exec (r.2.2.1 i) s = .next t ∧
      (∀ a, lsByteAt (t.cluster i.tile i.cluster) a = (r.2.2.2.2 e).foldl stored (lsByteAt e.cl) a) ∧
      keepsAll i e t ∧ goesOn i e t ∧
      (t.cluster i.tile i.cluster).istore = e.cl.istore ∧ (t.cluster i.tile i.cluster).arr = e.cl.arr ∧
      (∀ k, k ≠ i.cluster.val → t.cluster i.tile k = e.s.cluster i.tile k) ∧
      (∀ q, q ≠ e.s.phys i.tile → t.tile q = e.s.tile q) ∧
      t = { e.s with tiles := t.tiles, crown := { e.s.crown with reports := t.crown.reports } }

/-- R144, R155 to R157, R194, R204: a memory instruction with room for its requests appends them to the queues of the hubs that own
their addresses, in lane order, and leaves its registers as they are until the answers come; without room it waits. No byte of
memory changes until the sorter serves a request. -/
def Obligations.MemoryRequests : Prop :=
  ∀ r ∈ memoryRows, ∀ i s e, issued r.1 r.2.1 i s = some e → r.2.2.2.1 e = [] → ∃ t, exec (r.2.2.1 i) s = .next t ∧
    let n := (r.2.2.2.2.1 e).length
    if e.cl.outstanding + n ≤ 512 ∧ e.x.outstanding + n ≤ 16 then
      queued e t (r.2.2.2.2.1 e) ∧ keepsAll i e t ∧ goesOn i e t ∧
      (ctxAt t i).outstanding = e.x.outstanding + n ∧ (ctxAt t i).pend = e.x.pend ++ r.2.2.2.2.2.1 e ∧
      (ctxAt t i).writes = e.x.writes + (if r.2.2.2.2.2.2 then n else 0) ∧
      (t.cluster i.tile i.cluster).outstanding = e.cl.outstanding + n ∧
      (t.cluster i.tile i.cluster).launches = noteLaunch (e.cl.launches.map fun l =>
        if l.ordinal = e.x.launch then { l with writes := l.writes + if r.2.2.2.2.2.2 then n else 0 } else l)
        e.x.launch i.ctx e.x.insns false false ∧
      t.mem = e.s.mem ∧ t.memErr = e.s.memErr ∧ t.poison = e.s.poison ∧
      (∀ q, q ≠ e.s.phys i.tile → t.tile q = e.s.tile q)
    else waits e t

/-- R197, R198: SKICK queues its kick at the descriptor's engine, and PSETN sets the count of an adjustable item, once their checks
pass; SKICK waits for its context's earlier writes. -/
def Obligations.KicksAndCounts : Prop :=
  (∀ i s e, issued 0xA0 (fun _ => { s1 := .scalar, s2 := .scalar, mod := 0xFFF, pred := false }) i s = some e →
    let m := e.s.tileMould e.t
    let d := lget {} m.descs (bits e.w.mod 11 0)
    let off := (e.scalar e.w.s1).toNat
    let count := (e.scalar e.w.s2).toNat
    e.kickCauses m off count = [] → ∃ t, exec (.skick i) s = .next t ∧
      if e.x.writes = 0 then
        (∀ n, (t.ltile i.tile).engine n = if n = 2 * d.cluster + d.engine then
            { (e.s.ltile i.tile).engine n with kicks := ((e.s.ltile i.tile).engine n).kicks ++
              [{ desc := bits e.w.mod 11 0, offset := off, count := count }] }
          else (e.s.ltile i.tile).engine n) ∧
        keepsAll i e t ∧ goesOn i e t ∧ t.hubs = e.s.hubs ∧ t.mem = e.s.mem ∧
        (∀ k, k ≠ i.cluster.val → t.cluster i.tile k = e.s.cluster i.tile k)
      else waits e t) ∧
  (∀ i s e, issued 0xA1 (fun _ => { s1 := .scalar, mod := 0x1FFF, pred := false }) i s = some e →
    let m := e.s.tileMould e.t
    let n := bits e.w.mod 11 0
    let v := (e.scalar e.w.s1).toNat
    (bit e.w.mod 12 = false → psetnCauses (adjPours (lget [] m.pours e.k)) e.cl.arr.adj n v = [] →
      ∃ t, exec (.psetn i) s = .next t ∧
        (t.cluster i.tile i.cluster).arr = { e.cl.arr with adj := (t.cluster i.tile i.cluster).arr.adj } ∧
        (∀ j, tget 0 (t.cluster i.tile i.cluster).arr.adj j = if j = n then v else tget 0 e.cl.arr.adj j) ∧
        keepsAll i e t ∧ goesOn i e t ∧ t.hubs = e.s.hubs ∧ t.mem = e.s.mem) ∧
    (bit e.w.mod 12 = true → psetnCauses (adjMvs (lget [] m.mvs (e.k / 2))) ((e.s.ltile e.t).mv (e.k / 2)).adj n v = [] →
      ∃ t, exec (.psetn i) s = .next t ∧
        (∀ j, tget 0 ((t.ltile i.tile).mv (i.cluster / 2)).adj j =
          if j = n then v else tget 0 ((e.s.ltile i.tile).mv (i.cluster / 2)).adj j) ∧
        keepsAll i e t ∧ goesOn i e t ∧ t.hubs = e.s.hubs ∧ t.mem = e.s.mem))

/-- R149 to R151, R154, R199: WAIT goes on once its token holds enough and waits before; SIGNAL adds to its token once the context's
earlier writes are accepted, and no other token changes; BAR counts the arrival and holds the context. -/
def Obligations.Synchronisation : Prop :=
  (∀ i s e, issued 0xB0 (fun _ => { s1 := .scalar, mod := 0xFFFFFF, pred := false }) i s = some e → ∃ t, exec (.wait i) s = .next t ∧
    if (e.scalar e.w.s1 + BitVec.ofNat 64 (e.w.mod % 2 ^ 16)).setWidth 32 ≤ BitVec.ofNat 32 (e.s.token i.tile (bits e.w.mod 23 16)) then
      keepsAll i e t ∧ goesOn i e t ∧ onlyContext i e t
    else waits e t) ∧
  (∀ i s e, issued 0xB1 useSignal i s = some e →
    e.s.token i.tile (bits e.w.mod 23 16) + bits e.w.mod 7 0 ≤ 0xFFFFFFFF → ∃ t, exec (.signal i) s = .next t ∧
    if e.x.writes = 0 then
      (∀ k, t.token i.tile k = e.s.token i.tile k + if k = bits e.w.mod 23 16 then bits e.w.mod 7 0 else 0) ∧
      keepsAll i e t ∧ goesOn i e t ∧ t.hubs = e.s.hubs ∧ t.mem = e.s.mem ∧
      (∀ k, k ≠ i.cluster.val → t.cluster i.tile k = e.s.cluster i.tile k) ∧
      (∀ q, q ≠ e.s.phys i.tile → t.tile q = e.s.tile q)
    else waits e t) ∧
  (∀ i s e, issued 0xB2 (fun _ => { mod := 0x7, pred := false }) i s = some e → ∃ t, exec (.bar i) s = .next t ∧
    (∀ n, tget 0 (ctxAt t i).barCount n = tget 0 e.x.barCount n + if n = bits e.w.mod 2 0 then 1 else 0) ∧
    (ctxAt t i).barWait = some (bits e.w.mod 2 0) ∧ keepsAll i e t ∧ goesOn i e t ∧ onlyContext i e t)

/-- R139, R201: where BR, BRP and LOOP go on, what LOOP writes, and that HALT ends its context and no other. -/
def Obligations.Control : Prop :=
  (∀ i s e, issued 0xE0 (fun _ => { mod := 0x3FFF, pred := false }) i s = some e → ∃ t, exec (.br i) s = .next t ∧
    (ctxAt t i).pc = BitVec.ofNat 14 e.w.mod ∧ (ctxAt t i).stopped = e.x.stopped ∧ keepsAll i e t ∧ onlyContext i e t) ∧
  (∀ i s e, issued 0xE1 (fun _ => { mod := 0x13FFF }) i s = some e → ∃ t, exec (.brp i) s = .next t ∧
    (let p := if e.w.neg then ~~~(readPred e.x (48 + e.w.pred)) else readPred e.x (48 + e.w.pred)
     if (bit e.w.mod 16 = true ∧ p = 0xFFFF) ∨ (bit e.w.mod 16 = false ∧ p ≠ 0) then
       (ctxAt t i).pc = BitVec.ofNat 14 e.w.mod ∧ (ctxAt t i).stopped = e.x.stopped
     else goesOn i e t) ∧ keepsAll i e t ∧ onlyContext i e t) ∧
  (∀ i s e, issued 0xE2 (fun _ => { s1 := .sreg, mod := 0x3FFF, pred := false }) i s = some e → ∃ t, exec (.loop i) s = .next t ∧
    (∀ r, tget 0 (ctxAt t i).s r = if r = e.w.s1 - 32 then e.scalar e.w.s1 - 1 else tget 0 e.x.s r) ∧
    (ctxAt t i).v = e.x.v ∧ (ctxAt t i).p = e.x.p ∧
    (if e.scalar e.w.s1 = 1 then goesOn i e t
      else (ctxAt t i).pc = BitVec.ofNat 14 e.w.mod ∧ (ctxAt t i).stopped = e.x.stopped) ∧ onlyContext i e t) ∧
  (∀ i s e, issued 0xE3 (fun _ => { pred := false }) i s = some e → ∃ t, exec (.halt i) s = .next t ∧
    (ctxAt t i).running = false ∧ (∀ c, c ≠ i.ctx.val → (t.cluster i.tile i.cluster).ctx c = (e.s.cluster i.tile i.cluster).ctx c) ∧
    (∀ k, k ≠ i.cluster.val → t.cluster i.tile k = e.s.cluster i.tile k) ∧
    (∀ q, q ≠ e.s.phys i.tile → t.tile q = e.s.tile q) ∧ t = { e.s with tiles := t.tiles })

/-- R167, R169, R201, R202: TRAP and an opcode that is not assigned trap, and what a trap leaves. -/
def Obligations.Traps : Prop :=
  (∀ i s e, issued 0xE4 (fun _ => { mod := 0x7F, pred := false }) i s = some e → ∃ t, exec (.trap i) s = .next t ∧
    trapped i e.s (0x80 + e.w.mod % 128) t) ∧
  (∀ i s e d, (struckAt i s).fetch i.tile i.cluster i.ctx = some (e, d) → d.bad = false →
    (∀ r ∈ threadRows, e.w.opc ≠ r.1) → ∃ t, exec (.illegalOpcode i) s = .next t ∧
    trapped i (counted i s d.fixed) 0x02 t)

/-- R135, R167, R171, R175, R176, R202: the fields of an instruction word; every thread instruction whose context cannot issue does nothing; a fetch that is uncorrectable traps
with FETCH_UNCORRECTABLE; an encoding that breaks a rule traps with the lowest cause that applies; and in each case the instruction
writes no register. -/
def Obligations.IssueChecks : Prop :=
  (∀ w : W64, let x := Word.of w
    x.opc = w.toNat / 2 ^ 56 ∧ x.dst = w.toNat / 2 ^ 50 % 64 ∧ x.s1 = w.toNat / 2 ^ 44 % 64 ∧ x.s2 = w.toNat / 2 ^ 38 % 64 ∧
    x.s3 = w.toNat / 2 ^ 32 % 64 ∧ x.neg = w.getLsbD 31 ∧ x.pred = w.toNat / 2 ^ 28 % 8 ∧ x.fmt = w.toNat / 2 ^ 24 % 16 ∧
    x.mod = w.toNat % 2 ^ 24) ∧
  ∀ r ∈ threadRows, ∀ i s, ∃ t, exec (r.2.2 i) s = .next t ∧
    ((struckAt i s).fetch i.tile i.cluster i.ctx = none → t = struckAt i s) ∧
    (∀ e d, (struckAt i s).fetch i.tile i.cluster i.ctx = some (e, d) →
      (d.bad = true → trapped i ((struckAt i s).tileDross ((struckAt i s).phys i.tile) 0x07 1) 0x01 t) ∧
      (d.bad = false → e.w.opc = r.1 → ∀ c, lowest (encodingCauses (r.2.1 e.w) e.w) = some c →
        trapped i (counted i s d.fixed) c t))

/-- R137 to R139, R165, R166, R283: a launch that may start sets its contexts and counts itself, and its list goes on; a launch whose
contexts have halted and whose writes are accepted leaves, its conditions recorded and its completion signalled. -/
def Obligations.Launches : Prop :=
  (∀ (a : ClusterAt) s₀ (h : Head) (it : LaunchItem), let s := struck a s₀
    let c := s.cluster a.tile a.cluster
    let r := (s.ltile a.tile).run (6 + a.cluster)
    listReady s a.tile (6 + a.cluster) h → (lget [] (s.tileMould a.tile).launches a.cluster)[r.pos]? = some (.item h it) →
    (∀ j, j < it.count → (c.ctx (it.first + j)).running = false) → (it.riser = 0xFF ∨ s.checkRiser a.tile it.riser = .ok) →
    ∃ t, exec (.launch a) s₀ = .next t ∧
      let i := r.count r.pos
      let d := t.cluster a.tile a.cluster
      let epoch := h.epoch i it.epoch
      let op := BitVec.ofNat 32 (h.op i (s.selOp it.opb it.op))
      let args := it.args.zipIdx.map fun x => s.sel64 (lget 0 it.sels x.2) x.1
      (∀ j, j < it.count → let x := d.ctx (it.first + j)
        let y := c.ctx (it.first + j)
        x = { running := true, launch := c.launchSeq + 1, lidx := j, op := op, epoch := epoch, pc := BitVec.ofNat 14 it.entry, s := x.s
              seqNo := if y.seqEpoch = some epoch then y.seqNo else 0, seqEpoch := some epoch, outstanding := y.outstanding } ∧
        ∀ n, tget 0 x.s n = lget 0 (BitVec.ofNat 64 j :: args) n) ∧
      (∀ n, (n < it.first ∨ it.first + it.count ≤ n) → d.ctx n = c.ctx n) ∧
      d = { c with ctxs := d.ctxs, launched := c.launched + 1, launchSeq := c.launchSeq + 1, launches := c.launches ++ [
        { ordinal := c.launchSeq + 1, pos := r.pos, first := it.first, count := it.count, op := op, epoch := epoch, sig := h.sig }] } ∧
      (∀ k, k ≠ a.cluster.val → t.cluster a.tile k = s.cluster a.tile k) ∧
      listMoved s t a.tile (6 + a.cluster) (r.pos + 1) r.stack ∧ onlyTile s t (s.phys a.tile)) ∧
  (∀ (a : ClusterAt) s₀ index (l : LaunchRun), let s := struck a s₀
    let c := s.cluster a.tile a.cluster
    let p := s.phys a.tile
    c.launches[index]? = some l → l.writes = 0 →
    (∀ j, j < l.count → let x := c.ctx (l.first + j); x.launch ≠ l.ordinal ∨ x.running = false ∧ x.stopped = false) →
    ∃ u t : State, exec (.launchComplete a index) s₀ = .next t ∧ t = u.tileItemSignal a.tile l.sig ∧
      u.cluster a.tile a.cluster = { c with launches := ldel c.launches index
                                            thrSent := (c.thrSent.1 || l.inv.isSome, c.thrSent.2 || l.ovf.isSome) } ∧
      (∀ k, k ≠ a.cluster.val → u.cluster a.tile k = s.cluster a.tile k) ∧
      (u.tile p).thrFlags = (s.tile p).thrFlags ||| (if l.inv.isSome then BitVec.ofNat 16 (2 ^ (4 * a.cluster.val)) else 0) |||
        (if l.ovf.isSome then BitVec.ofNat 16 (2 ^ (4 * a.cluster.val + 1)) else 0) ∧
      (∀ n, tget 0 (u.tile p).dross n = if (n = 0x18 ∧ l.inv.isSome) ∨ (n = 0x19 ∧ l.ovf.isSome)
        then min 0xFFFF (tget 0 (s.tile p).dross n + 1) else tget 0 (s.tile p).dross n) ∧
      u.crown = { s.crown with records := s.crown.records ++
        (match l.inv with | some (x, n) => if c.thrSent.1 then [] else [threadNote s a 0 l.op x n] | none => []) ++
        (match l.ovf with | some (x, n) => if c.thrSent.2 then [] else [threadNote s a 1 l.op x n] | none => []) } ∧
      (∀ q, q ≠ p → u.tile q = s.tile q) ∧ u = { s with tiles := u.tiles, crown := u.crown })

/-- R274: REPEAT_BEGIN opens its group for as many executions as its count says, or passes it and every group in it where the count is
0; REPEAT_END goes back to the group's start while executions remain. Each list stands alone, of a tile or of a hub. The items before
a marker of a pour list or of a hub list may still be in progress (R83, R277, R285); that one which signals waits for them is the
model's choice (log entry 130). -/
def Obligations.Repeats : Prop :=
  (∀ (n : Fin 48) (l : Fin 18) s h c fm mb, let r := (s.ltile n).run l
    let marks := (s.tileMould n).marks l
    let count := if fm then s.chunksOf mb else c
    4 ≤ l.val → listReady s n l h → marks[r.pos]? = some (.rbegin h c fm mb) →
    ∃ u t : State, exec (.repeatBegin (.tile n l)) s = .next t ∧ t = u.tileItemSignal n h.sig ∧ onlyTile s u (s.phys n) ∧
      (0 < count → listMoved s u n l (r.pos + 1) ((r.pos, count - 1) :: r.stack)) ∧
      (count = 0 → ∀ b e rest, Closed b → marks.drop (r.pos + 1) = b ++ .rend e :: rest →
        listMoved s u n l (r.pos + b.length + 2) r.stack)) ∧
  (∀ (n : Fin 48) (l : Fin 18) s h p m rest, let r := (s.ltile n).run l
    4 ≤ l.val → listReady s n l h → ((s.tileMould n).marks l)[r.pos]? = some (.rend h) → r.stack = (p, m) :: rest →
    ∃ u t : State, exec (.repeatEnd (.tile n l)) s = .next t ∧ t = u.tileItemSignal n h.sig ∧ onlyTile s u (s.phys n) ∧
      if m = 0 then listMoved s u n l (r.pos + 1) rest else listMoved s u n l (p + 1) ((p, m - 1) :: rest)) ∧
  (∀ (n : Fin 48) (l : Fin 18) s h c fm mb at', let r := (s.ltile n).run l
    let count := if fm then s.chunksOf mb else c
    l.val < 4 → pourMayPass s n l at' h → (s.pourList n l)[at']? = some (.rbegin h c fm mb) →
    ∃ u t : State, exec (.repeatBegin (.tile n l)) s = .next t ∧ t = u.tileItemSignal n h.sig ∧ onlyTile s u (s.phys n) ∧
      (0 < count → pourPassed s u n l at' (at' + 1) ((at', count - 1) :: r.stack)) ∧
      (count = 0 → ∀ b e rest, Closed b → (s.pourList n l).drop (at' + 1) = b ++ .rend e :: rest →
        pourPassed s u n l at' (at' + b.length + 2) r.stack)) ∧
  (∀ (n : Fin 48) (l : Fin 18) s h p m rest at', let r := (s.ltile n).run l
    l.val < 4 → pourMayPass s n l at' h → (s.pourList n l)[at']? = some (.rend h) → r.stack = (p, m) :: rest →
    ∃ u t : State, exec (.repeatEnd (.tile n l)) s = .next t ∧ t = u.tileItemSignal n h.sig ∧ onlyTile s u (s.phys n) ∧
      if m = 0 then pourPassed s u n l at' (at' + 1) rest else pourPassed s u n l at' (p + 1) ((p, m - 1) :: rest)) ∧
  (∀ (n : Fin 8) (l : Fin 6) s h c fm mb at', let r := s.hubRun n l
    let count := if fm then s.chunksOf mb else c
    hubMayPass s n l at' h → (s.hubList n l)[at']? = some (.rbegin h c fm mb) →
    ∃ u t : State, exec (.repeatBegin (.hub n l)) s = .next t ∧ t = u.hubItemSignal n h.sig ∧ onlyHub s u n ∧
      (0 < count → hubPassed s u n l at' (at' + 1) ((at', count - 1) :: r.stack)) ∧
      (count = 0 → ∀ b e rest, Closed b → (s.hubList n l).drop (at' + 1) = b ++ .rend e :: rest →
        hubPassed s u n l at' (at' + b.length + 2) r.stack)) ∧
  (∀ (n : Fin 8) (l : Fin 6) s h p m rest at', let r := s.hubRun n l
    hubMayPass s n l at' h → (s.hubList n l)[at']? = some (.rend h) →
    r.stack = (p, m) :: rest → ∃ u t : State, exec (.repeatEnd (.hub n l)) s = .next t ∧ t = u.hubItemSignal n h.sig ∧ onlyHub s u n ∧
      if m = 0 then hubPassed s u n l at' (at' + 1) rest else hubPassed s u n l at' (p + 1) ((p, m - 1) :: rest))

/-- R149, R150, R273: a signal to a token of its own die counts there at once, or is the TOKEN fault past 0xFFFF_FFFF; one to another
die is on its way until a TOKEN_SIGNAL delivers it, with the same effect there. -/
def Obligations.TokenSignals : Prop :=
  (∀ (s : State) t tok n, s.token t tok + n ≤ 0xFFFFFFFF → ∃ u : State, s.signal t tok n = u ∧
    (∀ k, u.token t k = s.token t k + if k = tok then n else 0) ∧ onlyTile s u (s.phys t) ∧
    u.ltile t = { s.ltile t with tokens := (u.ltile t).tokens }) ∧
  (∀ (s : State) t tok n, 0xFFFFFFFF < s.token t tok + n → s.signal t tok n = { s with crown := { s.crown with
    reports := s.crown.reports ++ [{ die := t, code := 0x09, body := body [(64, s.stepNo), (6, t), (8, tok)] }] } }) ∧
  (∀ (s : State) h tok n, s.hubToken h tok + n ≤ 0xFFFFFFFF → ∃ u : State, s.signalHub h tok n = u ∧
    (∀ k, u.hubToken h k = s.hubToken h k + if k = tok then n else 0) ∧ onlyHub s u h ∧
    u.hub h = { s.hub h with tokens := (u.hub h).tokens }) ∧
  (∀ (s : State) h tok n, 0xFFFFFFFF < s.hubToken h tok + n → s.signalHub h tok n = { s with crown := { s.crown with
    reports := s.crown.reports ++ [{ die := 48 + h, code := 0x09, body := body [(64, s.stepNo), (6, 48 + h), (8, tok)] }] } }) ∧
  (∀ (s : State) (t : Nat) tok, t < 48 → s.tileItemSignal t (some (0, tok)) = s.signal t tok 1) ∧
  (∀ (s : State) (h : Nat) tok, s.hubItemSignal h (some (0, tok)) = s.signalHub h tok 1) ∧
  (∀ (s : State) (t : Nat) tok, t < 48 → s.tileItemSignal t (some (1, tok)) =
    { s with crown := { s.crown with signals := s.crown.signals ++ [(48 + t / 6, tok, 1)] } }) ∧
  (∀ (s : State) (h j : Nat) tok, h < 8 → j < 6 → s.hubItemSignal h (some (8 + j, tok)) =
    { s with crown := { s.crown with signals := s.crown.signals ++ [(6 * h + j, tok, 1)] } }) ∧
  (∀ (s : State) index die tok n, s.crown.signals[index]? = some (die, tok, n) → ∃ u t : State, exec (.tokenSignal index) s = .next t ∧
    u = { s with crown := { s.crown with signals := s.crown.signals.eraseIdx index } } ∧
    t = if die < 48 then u.signal die tok n else u.signalHub (die - 48) tok n)

/-- R74 to R78, R86, R109: what LOAD latches, what PASS_F, PASS_D and PASS_W add to their registers, the flags each sets, and that each
changes nothing else of its array but its books. -/
def Obligations.ArrayPasses : Prop :=
  (∀ (a : ClusterAt) s₀ n it count, let s := struck a s₀
    let c := s.cluster a.tile a.cluster
    let x := c.rdRows it.a it.a.format it.x it.y
    itemStarts a s 0 n it count → it.x ≤ 128 → it.y ≤ 128 → x.1.bad = none →
    ∃ u t : State, exec (.load a) s₀ = .next t ∧ t = u.tileItemSignal a.tile n.head.sig ∧
      let d := u.cluster a.tile a.cluster
      (∀ r k, r < 128 → k < 128 → d.arr.latchAt r k = if r < it.x ∧ k < it.y then ingotAt it.pieceA x.2 r k else 0) ∧
      (∀ r, r < 128 → d.arr.parity.getLsbD r =
        ((List.range 128).filter fun k => parityOf 22 (d.arr.latchAt r k).toNat).length.bodd) ∧
      linesMarked d.arr ∧
      d = { c with arr := withBooks { c.arr with latch := d.arr.latch, parity := d.arr.parity, badRows := d.arr.badRows
                                                 badCols := d.arr.badCols, nr := it.x, nc := it.y, piece := it.pieceA } d.arr } ∧
      d.arr.latched = n.inst.pour ∧
      flagged (flagsOf c.arr n.inst.pour) (flagsOf d.arr n.inst.pour) False False
        (∃ r k, r < it.x ∧ k < it.y ∧ ofIngot (ingotAt it.pieceA x.2 r k) = .nan) ∧ itemFinished a s u n x.1.fixed) ∧
  (∀ r ∈ ([(1, .passF), (2, .passD)] : List (Nat × (ClusterAt → Instr))), ∀ (a : ClusterAt) s₀ n it count, let s := struck a s₀
    let c := s.cluster a.tile a.cluster
    let lines := if r.1 = 1 then c.arr.nr else c.arr.nc
    let x := c.rdRows it.a it.a.format count (if r.1 = 1 then c.arr.nc else c.arr.nr)
    itemStarts a s r.1 n it count → count ≤ 256 → x.1.bad = none →
    ∃ u t : State, exec (r.2 a) s₀ = .next t ∧ t = u.tileItemSignal a.tile n.head.sig ∧
      let d := u.cluster a.tile a.cluster
      let old := if r.1 = 1 then c.arr.rowEdge else c.arr.colEdge
      let new := if r.1 = 1 then d.arr.rowEdge else d.arr.colEdge
      (∀ b i, b < count → i < lines → tget 0 new (256 * i + (it.eb + b) % 256) = (lineSum s c.arr it x.2 b i).1) ∧
      (∀ i j, j < 256 → (lines ≤ i ∨ ∀ b, b < count → (it.eb + b) % 256 ≠ j) → tget 0 new (256 * i + j) = tget 0 old (256 * i + j)) ∧
      d = { c with arr := withBooks (if r.1 = 1 then { c.arr with rowEdge := new } else { c.arr with colEdge := new }) d.arr } ∧
      flagged (flagsOf c.arr n.inst.pour) (flagsOf d.arr n.inst.pour)
        (∃ b i, b < count ∧ i < lines ∧ ((∃ p ∈ lineProducts c.arr it x.2 b i, p.2 = true) ∨
          (treeSum ((lineProducts c.arr it x.2 b i).map Prod.fst)).2 = true ∨ (lineSum s c.arr it x.2 b i).2.1 = true))
        (∃ b i, b < count ∧ i < lines ∧ (lineSum s c.arr it x.2 b i).2.2 = true)
        (∃ b i, b < count ∧ ofIngot (ingotAt it.pieceA x.2 b i) = .nan) ∧ itemFinished a s u n x.1.fixed) ∧
  (∀ (a : ClusterAt) s₀ n it count, let s := struck a s₀
    let c := s.cluster a.tile a.cluster
    let x := c.rdRows it.a it.a.format count it.x
    let y := c.rdRows it.b it.b.format count it.y
    itemStarts a s 3 n it count → 0 < count → it.x ≤ 128 → it.y ≤ 128 → x.1.bad = none → y.1.bad = none →
    ∃ u t : State, exec (.passW a) s₀ = .next t ∧ t = u.tileItemSignal a.tile n.head.sig ∧
      let d := u.cluster a.tile a.cluster
      (∀ r k, r < 128 → k < 128 → tget 0 d.arr.site (128 * r + k) =
        if r < it.x ∧ k < it.y then siteBefore s c.arr it x.2 y.2 r k count else tget 0 c.arr.site (128 * r + k)) ∧
      d = { c with arr := withBooks { c.arr with site := d.arr.site } d.arr } ∧
      flagged (flagsOf c.arr n.inst.pour) (flagsOf d.arr n.inst.pour)
        (∃ b r k, b < count ∧ r < it.x ∧ k < it.y ∧
          ((siteProduct it x.2 y.2 b r k).2 = true ∨ (siteSum s c.arr it x.2 y.2 b r k).2.1 = true))
        (∃ b r k, b < count ∧ r < it.x ∧ k < it.y ∧ (siteSum s c.arr it x.2 y.2 b r k).2.2 = true)
        (∃ b i, b < count ∧ (ofIngot (ingotAt it.pieceA x.2 b i) = .nan ∨ ofIngot (ingotAt it.pieceB y.2 b i) = .nan)) ∧
      itemFinished a s u n (x.1.fixed + y.1.fixed))

/-- R87 to R91, R109: EDGE_DRAIN and SITE_DRAIN write their converted vectors and scales to local store, and change no other byte of it
and no register; EDGE_PRELOAD and SITE_PRELOAD set their registers from local store, and no other. -/
def Obligations.ArrayMoves : Prop :=
  (∀ r ∈ ([(4, .edgeDrain), (6, .siteDrain)] : List (Nat × (ClusterAt → Instr))), ∀ (a : ClusterAt) s₀ n it count, let s := struck a s₀
    let c := s.cluster a.tile a.cluster
    itemStarts a s r.1 n it count → (∀ w ∈ drainWrites s c.arr it, writable c w) →
    ∃ (u t : State) (fixed : Nat), exec (r.2 a) s₀ = .next t ∧ t = u.tileItemSignal a.tile n.head.sig ∧
      let d := u.cluster a.tile a.cluster
      let vectors := if r.1 = 4 then it.n else it.x
      (∀ b, lsByteAt d b = (drainWrites s c.arr it).foldl stored (lsByteAt c) b) ∧
      d = { c with ls := d.ls, lsErr := d.lsErr, arr := withBooks c.arr d.arr } ∧
      flagged (flagsOf c.arr n.inst.pour) (flagsOf d.arr n.inst.pour)
        (∃ j, j < vectors ∧ ∃ v ∈ (drainAt s c.arr it j).raised, v.inv = true)
        (∃ j, j < vectors ∧ ∃ v ∈ (drainAt s c.arr it j).raised, v.ovf = true) False ∧ itemFinished a s u n fixed) ∧
  (∀ r ∈ ([(5, .edgePreload), (7, .sitePreload)] : List (Nat × (ClusterAt → Instr))), ∀ (a : ClusterAt) s₀ n it count,
    let s := struck a s₀
    let c := s.cluster a.tile a.cluster
    let vectors := if r.1 = 5 then it.n else it.x
    let wide := if r.1 = 5 then it.x else it.y
    itemStarts a s r.1 n it count → vectors ≤ (if r.1 = 5 then 256 else 128) → wide ≤ 128 →
    (∀ j, j < vectors → (preloadRead c it j).bad = none) →
    ∃ u t : State, exec (r.2 a) s₀ = .next t ∧ t = u.tileItemSignal a.tile n.head.sig ∧
      let d := u.cluster a.tile a.cluster
      let bank := fun (x : ArraySt) => if r.1 = 7 then x.site else if it.col then x.colEdge else x.rowEdge
      let key := fun j i => if r.1 = 5 then 256 * i + (it.eb + j) % 256 else 128 * j + i
      (∀ j i, j < vectors → i < wide → tget 0 (bank d.arr) (key j i) = preloadAt c it j i) ∧
      (∀ k, (∀ j i, j < vectors → i < wide → k ≠ key j i) → tget 0 (bank d.arr) k = tget 0 (bank c.arr) k) ∧
      d = { c with arr := withBooks (if r.1 = 7 then { c.arr with site := bank d.arr } else
              if it.col then { c.arr with colEdge := bank d.arr } else { c.arr with rowEdge := bank d.arr }) d.arr } ∧
      flagged (flagsOf c.arr n.inst.pour) (flagsOf d.arr n.inst.pour) False False (∃ j i, j < vectors ∧ i < wide ∧
        decode .f32 (leNat (((preloadRead c it j).bytes.drop (4 * i)).take 4)) = .nan) ∧
      itemFinished a s u n (((List.range vectors).map fun j => (preloadRead c it j).fixed).sum))

/-- R80, R101, R102, R109, R111, R112: the end of a pour and of the prologue reports each flag collected, once for each cluster and step
with a record; a filler pour latches its block with its parity, reads its vectors, and changes no accumulator, edge register, flag,
counter or byte. -/
def Obligations.PourEnds : Prop :=
  (∀ (a : ClusterAt) s₀ p, let s := struck a s₀
    let c := s.cluster a.tile a.cluster
    oldestPour c.arr.pours = some p → c.arr.stopped = false → (c.arr.prologueDone = true ∨ c.arr.prologue = {}) →
    s.pourOver a.tile a.cluster p.pour = true →
    (c.arr.latched = p.pour → s.pourListDone a.tile a.cluster = true → c.arr.parityOk = true) →
    ∃ u t : State, exec (.pourEnd a) s₀ = .next t ∧
      t = u.trace (a.tile / 6) (tileAgent a.tile a.cluster) (p.rd.flatMap Prod.snd) (p.wr.flatMap Prod.snd) ∧
      reported a s u p.pour p.flags
      { c with arr := { c.arr with pours := c.arr.pours.filter fun q => q.pour != p.pour } }) ∧
  (∀ (a : ClusterAt) s₀, let s := struck a s₀
    let c := s.cluster a.tile a.cluster
    s.crown.openStep.isSome = true → c.arr.prologueDone = false → c.arr.stopped = false →
    s.pourOver a.tile a.cluster 0 = true →
    ∃ t, exec (.prologueEnd a) s₀ = .next t ∧ reported a s t 0 c.arr.prologue
      { c with arr := { c.arr with prologueDone := true } }) ∧
  (∀ (a : ClusterAt) s₀ n block vecs, let s := struck a s₀
    let c := s.cluster a.tile a.cluster
    let x := c.rdRows { stride := 256, fmt := 1, addr := block } .bf16 128 128
    s.nextItem a.tile a.cluster 0 = some n → lget none (s.tileMould a.tile).filler a.cluster = some (block, vecs) →
    s.crown.openStep.isSome = true → c.arr.stopped = false → n.at'.head.fillerOk = true →
    s.waitMet a.tile n.at'.head n.at'.inst.i = false →
    (∀ y ∈ n.skipped, pathOf y.1.code ≠ 1) → s.mouldSet.step.loadFloor ≠ 0 → (s.ltile a.tile).cuff.floorReq = true →
    (c.arr.latched ≠ 0 ∨ c.arr.filler = true → c.arr.parityOk = true) → x.1.bad = none → (c.fillerVecs vecs).bad = none →
    ∃ t, exec (.fillerPour a) s₀ = .next t ∧
      let d := t.cluster a.tile a.cluster
      (∀ r k, r < 128 → k < 128 → d.arr.latchAt r k = ingotAt 0 x.2 r k) ∧ d.arr.parityOk = true ∧ linesMarked d.arr ∧
      d = { c with arr := { c.arr with latch := d.arr.latch, parity := d.arr.parity, badRows := d.arr.badRows, badCols := d.arr.badCols
                                       nr := 128, nc := 128, piece := 0, filler := true, ramp := d.arr.ramp } } ∧
      (∀ k, k ≠ a.cluster.val → t.cluster a.tile k = s.cluster a.tile k) ∧
      t.ltile a.tile = { s.ltile a.tile with clusters := (t.ltile a.tile).clusters } ∧
      onlyTile s t (s.phys a.tile))

/-- R118, R126, R129: what VLOAD latches, what ACC_DRAIN writes to local store, and what ACC_PRELOAD reads from it, with the flags each
reports; and what reporting a flag of an MV item does. -/
def Obligations.MvMoves : Prop :=
  (∀ (a : MvAt) s₀ h it₀, let s := struckMv a s₀
    let m := halfAt s a
    let r := (s.ltile a.tile).run (4 + a.region)
    let it := s.mvAt h (r.count r.pos) it₀
    let x := (s.cluster a.tile (mvCluster a.region)).rdRows it.a it.a.format it.ncol it.k
    mvStarts a s 0 h it₀ → s.checkSource a.tile (mvCluster a.region) it.reads = .ok → it.set < 2 → it.ncol ≤ 8 → it.k ≤ 16384 →
    x.1.bad = none → ∃ (u t : State) (f : FlagSet), exec (.vload a) s₀ = .next t ∧
      t = (u.tileItemSignal a.tile h.sig).mvFlags a.tile a.region none f ∧
      (∀ n c e, n < 2 → c < 8 → e < 16384 → (halfAt u a).latchAt n c e =
        if n = it.set then (if c < it.ncol ∧ e < it.k then ingotAt 0 x.2 c e else 0) else m.latchAt n c e) ∧
      (∀ c g, c < 8 → g < 32 → tget false (halfAt u a).parity (256 * it.set + 32 * c + g) =
        ((List.range 512).filter fun e => parityOf 22 ((halfAt u a).latchAt it.set c (512 * g + e)).toNat).length.bodd) ∧
      halfAt u a = withMvBooks { m with latch := (halfAt u a).latch, parity := (halfAt u a).parity } (halfAt u a) ∧
      u.cluster a.tile (mvCluster a.region) = s.cluster a.tile (mvCluster a.region) ∧
      flagged {} f False False (∃ c e, c < it.ncol ∧ e < it.k ∧ ofIngot (ingotAt 0 x.2 c e) = .nan) ∧ mvFinished a s u x.1.fixed) ∧
  (∀ (a : MvAt) s₀ h it₀, let s := struckMv a s₀
    let m := halfAt s a
    let c := s.cluster a.tile (mvCluster a.region)
    let r := (s.ltile a.tile).run (4 + a.region)
    let it := s.mvAt h (r.count r.pos) it₀
    mvStarts a s 3 h it₀ → (∀ w ∈ accWrites s m it, writable c w) →
    ∃ (u t : State) (f : FlagSet) (fixed : Nat), exec (.accDrain a) s₀ = .next t ∧
      t = (u.tileItemSignal a.tile h.sig).mvFlags a.tile a.region none f ∧
      let d := u.cluster a.tile (mvCluster a.region)
      (∀ b, lsByteAt d b = (accWrites s m it).foldl stored (lsByteAt c) b) ∧ d = { c with ls := d.ls, lsErr := d.lsErr } ∧
      halfAt u a = withMvBooks m (halfAt u a) ∧
      flagged {} f (∃ k, k < 8 ∧ ∃ v ∈ (accColumn s m it k).raised, v.inv = true)
        (∃ k, k < 8 ∧ ∃ v ∈ (accColumn s m it k).raised, v.ovf = true) False ∧ mvFinished a s u fixed) ∧
  (∀ (a : MvAt) s₀ h it₀, let s := struckMv a s₀
    let m := halfAt s a
    let r := (s.ltile a.tile).run (4 + a.region)
    let it := s.mvAt h (r.count r.pos) it₀
    let x := fun j => (s.cluster a.tile (mvCluster a.region)).rd (it.a.addr + j * it.a.stride) 32
    let word := fun j k => leNat (((x j).bytes.drop (4 * k)).take 4)
    mvStarts a s 4 h it₀ → s.checkSource a.tile (mvCluster a.region) it.reads = .ok → it.ob + it.count ≤ 2048 →
    (∀ j, j < it.count → (x j).bad = none) → ∃ (u t : State) (f : FlagSet), exec (.accPreload a) s₀ = .next t ∧
      t = (u.tileItemSignal a.tile h.sig).mvFlags a.tile a.region none f ∧
      (∀ k o, k < 8 → o < 2048 → tget 0 (halfAt u a).acc (2048 * k + o) =
        if it.ob ≤ o ∧ o < it.ob + it.count then (if decode .f32 (word (o - it.ob) k) = .nan then 0x7FC00000
          else BitVec.ofNat 32 (word (o - it.ob) k)) else tget 0 m.acc (2048 * k + o)) ∧
      halfAt u a = withMvBooks { m with acc := (halfAt u a).acc } (halfAt u a) ∧
      u.cluster a.tile (mvCluster a.region) = s.cluster a.tile (mvCluster a.region) ∧
      flagged {} f False False (∃ j k, j < it.count ∧ k < 8 ∧ decode .f32 (word j k) = .nan) ∧
      mvFinished a s u (((List.range it.count).map fun j => (x j).fixed).sum)) ∧
  (∀ (s : State) (t r flag : Nat) run (l : FlagLoc), flag < 3 → ∃ u : State, s.mvFlag t r run flag (some l) = u ∧
    let p := s.phys t
    let sent := flagSent ((s.ltile t).mv r).sent flag
    (u.tile p).mvFlags = (s.tile p).mvFlags ||| BitVec.ofNat 8 (2 ^ (4 * r + flag)) ∧
    (∀ x, tget 0 (u.tile p).dross x =
      if flag < 2 ∧ x = 0x18 + flag then min 0xFFFF (tget 0 (s.tile p).dross x + 1) else tget 0 (s.tile p).dross x) ∧
    ((u.ltile t).mv r).sent = markSent ((s.ltile t).mv r).sent flag ∧
    (∃ item pour : Nat, (∀ n, run = some n → n < 2 ^ 32 → pour = n) ∧
      u.crown = { s.crown with records := s.crown.records ++ (if sent then [] else [{ type := 0x02, die := t, body := body [
        (64, s.stepNo), (6, t), (6, p), (2, r), (32, pour), (2, flag), (13, item), (4, l.mode), (8, l.ord), (8, l.a), (8, l.b)] }]) }) ∧
    (∀ q, q ≠ p → u.tile q = s.tile q) ∧ u = { s with tiles := u.tiles, crown := u.crown, free := u.free })

/-- R119 to R123, R127, R128: RUN_N and RUN_T take their weights from the intake once all are there, add the tree sum of each segment or
row group to the registers of their columns in order, change no other register, and report their flags; a run waits for its weights. -/
def Obligations.MvRuns : Prop :=
  ∀ r ∈ mvRunRows, ∀ (a : MvAt) s₀ h it₀ n, let s := struckMv a s₀
    let m := halfAt s a
    let lr := (s.ltile a.tile).run (4 + a.region)
    let it := s.mvAt h (lr.count lr.pos) it₀
    let d := lget {} (s.tileMould a.tile).descs it.desc
    mvStarts a s r.1 h it₀ → s.rowsInForce a.tile a.region lr.pos it₀ = some n →
    (m.takeWeights d it.desc (n * it.k) = none → exec (r.2.1 a) s₀ = .next s) ∧
    (∀ data sc m', m.takeWeights d it.desc (n * it.k) = some (data, sc, m') → 0 < it.seg → it.seg ≤ 512 → it.ncol ≤ 8 →
      0 < r.2.2.1 it n → it.ob + r.2.2.2.1 it n ≤ 2048 → m.badSegment it (if r.1 = 1 then it.k else n) = none →
      ∃ (u t : State) (f : FlagSet), exec (r.2.1 a) s₀ = .next t ∧
        t = ((u.tileItemSignal a.tile h.sig).mvFlags a.tile a.region (some m.runs) f).trace (a.tile / 6)
          (tileAgent a.tile (4 + a.region)) (data ++ sc) [] ∧
        let w := runWeights s a it n data sc
        let terms := fun c o => r.2.2.2.2 m it n w c (o - it.ob)
        let inside := fun c o => c < it.ncol ∧ it.ob ≤ o ∧ o < it.ob + r.2.2.2.1 it n
        (∀ c o, c < 8 → o < 2048 → tget 0 (halfAt u a).acc (2048 * c + o) = if inside c o
          then mvBefore s it c o (tget 0 m.acc (2048 * c + o)) (terms c o) (r.2.2.1 it n) else tget 0 m.acc (2048 * c + o)) ∧
        (∀ k, tget ([], []) (halfAt u a).intake k = if k = it.desc
          then ((tget ([], []) m.intake k).1.drop data.length, (tget ([], []) m.intake k).2.drop sc.length)
          else tget ([], []) m.intake k) ∧
        halfAt u a = withMvBooks { m with acc := (halfAt u a).acc, intake := (halfAt u a).intake } (halfAt u a) ∧
        (halfAt u a).runs = m.runs + 1 ∧ u.cluster a.tile (mvCluster a.region) = s.cluster a.tile (mvCluster a.region) ∧
        flagged {} f
          (∃ c o t, inside c o ∧ t < r.2.2.1 it n ∧ ((∃ p ∈ terms c o t, p.2 = true) ∨ (treeSum ((terms c o t).map Prod.fst)).2 = true ∨
            (mvSum s it c o (tget 0 m.acc (2048 * c + o)) (terms c o) t).2.1 = true))
          (∃ c o t, inside c o ∧ t < r.2.2.1 it n ∧ (mvSum s it c o (tget 0 m.acc (2048 * c + o)) (terms c o) t).2.2 = true)
          (∃ e, e < n * it.k ∧ ofIngot (w e) = .nan) ∧ mvFinished a s u 0)

/-- R216, R278 to R280, R299: RUN_DESC starts the next item of its engine's list, and KICKED_RUN the engine's oldest kick, while fewer than
eight of its runs go on, a step is open, and for an item its words are read, its wait is met and its risers hold; each run gets the
engine's next number, and moves or asks for the pieces its descriptor names and no others. A run from memory or from a hub endpoint
starts whatever it will read; one from local store moves all of it at once where that can be read. -/
def Obligations.StreamRuns : Prop :=
  (∀ (a : EngineAt) s₀ h desc, let s := struckEngine a s₀
    let r := (s.ltile a.tile).run (10 + a.engine)
    let g := (s.ltile a.tile).engine a.engine
    let add := h.addr (r.count r.pos)
    listReady s a.tile (10 + a.engine) h → (lget [] (s.tileMould a.tile).streams a.engine)[r.pos]? = some (.item h desc) →
    g.runs.length < 8 →
    s.checkSource a.tile (lget {} (s.tileMould a.tile).descs desc).cluster (s.descLocal a.tile desc add) = .ok →
    ((lget {} (s.tileMould a.tile).descs desc).srcKind ≠ 0 ∨ runReadable s a.tile a.engine desc 0 0 add) →
    ∃ u t : State, exec (.runDesc a) s₀ = .next t ∧
      runStarted s u a.tile a.engine desc 0 0 add h.sig ∧ listMoved u t a.tile (10 + a.engine) (r.pos + 1) r.stack ∧
      t.ltile a.tile = { u.ltile a.tile with lists := (t.ltile a.tile).lists } ∧ onlyTile u t (s.phys a.tile)) ∧
  (∀ (a : EngineAt) s₀ (k : Kick) rest, let s := struckEngine a s₀
    let g := (s.ltile a.tile).engine a.engine
    let d := lget {} (s.tileMould a.tile).descs k.desc
    let v := s.updLtile a.tile fun x => x.setEngine a.engine { g with kicks := rest }
    g.kicks = k :: rest → g.runs.length < 8 → s.crown.openStep.isSome = true →
    (d.srcKind ≠ 0 ∨ runReadable s a.tile a.engine k.desc k.offset k.count 0) → ∃ t, exec (.kickedRun a) s₀ = .next t ∧
      runStarted v t a.tile a.engine k.desc k.offset k.count 0 (if d.ksigEn && !k.pro then some (0, d.ksigTok) else none)) ∧
  (∀ (a : EngineAt) s₀, ((struckEngine a s₀).ltile a.tile |>.engine a.engine).kicks = [] →
    exec (.kickedRun a) s₀ = .next (struckEngine a s₀))

/-- R151, R280, R288, R297: a run whose pieces are delivered and whose writes are accepted leaves its engine, gives its riser its tag and
sends its signal; one that waits for its endpoint takes its elements once all are there, and moves them on in order; one whose
destination endpoint had no credit gives it the whole stream once it has; any other stays. -/
def Obligations.StreamCompletions : Prop :=
  (∀ (a : EngineAt) s₀ index (r : DescRun), let s := struckEngine a s₀
    let g := (s.ltile a.tile).engine a.engine
    g.runs[index]? = some r → g.run? r.id = some r → (r.srcKind ≠ 2 ∨ r.taken = true) →
    ((r.next < r.chunks.length ∨ r.writes ≠ 0) → (r.dstKind ≠ 2 → ∀ p ∈ r.got, p.1 ≠ r.next) →
      (r.dstKind = 2 → r.chunks.length ≤ r.next ∨ r.got.length ≠ r.chunks.length ∨ s.credit (a.tile / 6) r.dst = false) →
      exec (.descRunComplete a index) s₀ = .next s) ∧
    (r.dstKind = 2 → r.next < r.chunks.length → r.got.length = r.chunks.length → s.credit (a.tile / 6) r.dst = true → r.writes = 0 →
      (∀ x ∈ g.runs, x.id = r.id → x = r) → ∃ (w t : State) (q : DescRun), exec (.descRunComplete a index) s₀ = .next t ∧
        piecesMoved s w a.tile a.engine r 0 (r.chunks.zip (r.got.map Prod.snd)) ∧
        (w.ltile a.tile).engine a.engine = { g with runs := g.runs.map fun x => if x.id = r.id then q else x } ∧
        q = { r with got := [], next := r.chunks.length, data := q.data } ∧ runCompleted w t a.tile a.engine q r.tag q.data) ∧
    (r.chunks.length ≤ r.next → r.writes = 0 → ∃ t, exec (.descRunComplete a index) s₀ = .next t ∧
      runCompleted s t a.tile a.engine r r.tag r.data)) ∧
  (∀ (a : EngineAt) s₀ index (r : DescRun), let s := struckEngine a s₀
    let g := (s.ltile a.tile).engine a.engine
    let ep := (s.hub (a.tile / 6)).ep r.src
    g.runs[index]? = some r → g.run? r.id = some r → r.srcKind = 2 → r.taken = false →
    (ep.data.length < r.elems → 0 < r.chunks.length → r.next = 0 → exec (.descRunComplete a index) s₀ = .next s) ∧
    (r.elems ≤ ep.data.length → r.next = 0 → r.writes = 0 → r.chunks ≠ [] → r.dstKind ≤ 3 → (∀ x ∈ g.runs, x.id = r.id → x = r) →
      let els := ep.data.take r.elems
      let b := ofElems ((Fmt.ofCode r.fmt).getD .f32) r.mx r.rowElems els
      let pieces := cutPieces r.chunks b.1 b.2
      let v := s.updHub (a.tile / 6) fun x => x.setEp r.src { ep with data := ep.data.drop r.elems }
      (r.dstKind = 0 → ∀ x ∈ pieces, ∀ w ∈ wrapped x.1.dst (x.1.clip x.2), writable (s.cluster a.tile r.cluster) w) →
      (r.dstKind = 2 → v.credit (a.tile / 6) r.dst = true) →
      ∃ (w t : State) (q : DescRun), exec (.descRunComplete a index) s₀ = .next t ∧ piecesMoved v w a.tile a.engine r 0 pieces ∧
        (w.ltile a.tile).engine a.engine = { g with runs := g.runs.map fun x => if x.id = r.id then q else x } ∧
        q = { r with got := [], taken := true, tag := lastTag els, next := r.chunks.length, data := q.data
                     writes := if r.dstKind = 1 then r.chunks.length else 0 } ∧
        if r.dstKind = 1 then t = w else runCompleted w t a.tile a.engine q (lastTag els) q.data))

/-- R217 to R219, R225, R226, R228, R237, R245: which head a sorter accepts, and that it takes a slot of its bank queue, or enters the add
buffer in key order; a full buffer goes to the spill log as one run; an add of a closed epoch, or with the log full, is the sorter's
fault; an add that would pass an uncorrectable word of the buffer is not taken. -/
def Obligations.SorterAcceptance : Prop :=
  (∀ (x : Hub) q, x.nextQueue = some q → ∃ r, x.headReq q = some r ∧ x.canAccept r = true ∧ (64 ≤ tget 0 x.passed q ∨
    ∀ p ∈ queueOrder, ∀ z, x.headReq p = some z → x.canAccept z = true → tget 0 x.passed p < 64 ∧ queueOrder.idxOf q ≤ queueOrder.idxOf p)) ∧
  (∀ (h : Fin 8) s q r rest, let x := s.hub h
    x.nextQueue = some q → tget [] x.ingress q = r :: rest → ∃ (t : State) (y : Hub), exec (.requestAccept h) s = .next t ∧
    (∀ k, tget [] y.ingress k = if k = q then rest else tget [] x.ingress k) ∧
    (∀ k, tget 0 y.passed k = if k = q then 0 else
      tget 0 x.passed k + if k ∈ queueOrder ∧ (x.headReq k).isSome = true ∧ queueClass q < queueClass k then 1 else 0) ∧
    y.resps = x.resps ++ (if r.answersAccept then [{ req := r, accepted := true }] else []) ∧
    y = { x with ingress := y.ingress, passed := y.passed, resps := y.resps } ∧
    (r.isAdd = false → t.hub h = { y with slots := x.slots ++ [{ req := r, bank := r.place.1, row := r.place.2, left := r.sectorList }] } ∧
      onlyHub s t h) ∧
    (∀ int v e th sq, r.kind = .add int v e th sq →
      let a : Add := { addr := r.addr, epoch := e, thread := th, seq := sq, int := int, v := v }
      let full := 16384 ≤ x.adds.length
      let word := fun (w : Nat) => decide (3 * (if full then 0 else (x.adds.takeWhile fun b => !a.lt b).length) ≤ w ∧ w < 3 * x.adds.length)
      (x.fences ≤ e → (s.readSram h 1 word).2 = true → (t.hub h).adds = x.adds ∧ (t.hub h).spill = x.spill ∧ (t.hub h).slots = x.slots) ∧
      (sramClean s →
        (x.fences ≤ e → ¬ full → onlyHub s t h ∧ ∃ l m, x.adds = l ++ m ∧ t.hub h = { y with adds := l ++ a :: m } ∧
          (∀ b ∈ l, a.lt b = false) ∧ ∀ b, m.head? = some b → a.lt b = true) ∧
        (∀ b, x.fences ≤ e → full → s.spillPlace h 1 = some b →
          (t.hub h).adds = [a] ∧ (t.hub h).spill = x.spill ++ [{ start := b, size := 1, adds := x.adds }] ∧ (t.hub h).slots = x.slots ∧
          onlyMemory s t ∧ (s.Sound → let base := (lget {} s.loaded.placement.hubs h).spill.1 + 0x40000 * b
            ∀ z, (z < base ∨ base + 0x40000 ≤ z) → memByteAt t z = memByteAt s z)) ∧
        ((e < x.fences ∨ full ∧ s.spillPlace h 1 = none) →
          let note := body [(64, s.stepNo), (3, h), (1, if e < x.fences then 0 else 1), (16, e)]
          t = { s with hubs := t.hubs, crown := { s.crown with
            reports := s.crown.reports ++ [{ die := 48 + h, code := 0x0A, body := note }] } } ∧ t.hub h = y))))

/-- R220 to R223, R232, R237, R242 to R244, R247, R254, R255: which slot a bank queue serves; reads of its sectors return what memory delivers and
change no byte; writes change the bytes they cover, the last accepted winning, and no other; the STATIC rewrite and the fettling
read change no byte, and fettling lists the sectors that need it; what a word of a hub's SRAM that is in error does when it is read. -/
def Obligations.SorterService : Prop :=
  (∀ (x : Hub) bank i, x.pick bank = some i → ∃ z, x.slots[i]? = some z ∧ z.bank = bank ∧ i ∈ x.ready bank ∧
    ((∃ j ∈ x.ready bank, ∃ y, x.slots[j]? = some y ∧ 16 ≤ y.passes) → 16 ≤ z.passes) ∧
    ((∀ j ∈ x.ready bank, ∀ y, x.slots[j]? = some y → y.passes < 16) →
      (thas x.openRow bank = true → (∃ j ∈ x.ready bank, ∃ y, x.slots[j]? = some y ∧ y.row = tget 0 x.openRow bank) →
        z.row = tget 0 x.openRow bank) ∧
      ((thas x.openRow bank = false ∨ ∀ j ∈ x.ready bank, ∀ y, x.slots[j]? = some y → y.row ≠ tget 0 x.openRow bank) →
        ∀ j ∈ x.ready bank, ∀ y, x.slots[j]? = some y → z.row ≤ y.row))) ∧
  (∀ (h : Fin 8) b hits s₀ i z, let s := struckHub h hits s₀
    let x := s.hub h
    let r := z.req
    sramClean s → s.Sound → x.pick (bankQueue b) = some i → x.slots[i]? = some z →
    ∃ t, exec (.sorterServe h b hits) s₀ = .next t ∧
      (∀ y ∈ (t.hub h).slots, ∃ w ∈ x.slots, y.req = w.req ∧ ∀ q ∈ y.left, q ∈ w.left) ∧
      (∀ n, r.kind = .read n → z.left = r.sectorList → z.got = [] →
        (∀ a, memByteAt t a = memByteAt s a) ∧ t = { s with hubs := t.hubs } ∧ ∃ p ∈ (t.hub h).resps, p.req = r ∧ p.accepted = false ∧
          p.bads = (r.sectorList.map (32 * ·)).filter (fun q => (s.readSector q).2.2) ∧
          (p.bads = [] → p.data = some ((List.range n).map fun j => memByteAt s (r.addr + j))) ∧ (p.bads ≠ [] → p.data = none)) ∧
      (∀ m, r.kind = .write m → z.left.Nodup → (∀ q ∈ z.left, sectorStores s x q) →
        (∀ a, memByteAt t a = if a / 32 ∈ z.left then ((writesAt x (a / 32)).map fun y => (y.addr, Req.bytes y)).foldl laid (memByteAt s) a
          else memByteAt s a) ∧ onlyMemory s t) ∧
      (r.kind = .rewrite → (s.readSector (sectorOf r.addr)).2.2 = false → r.addr % 32 = 0 →
        (∀ a, memByteAt t a = memByteAt s a) ∧ onlyMemory s t ∧ (t.hub h).slots.length + 1 = x.slots.length ∧
        (s.plateValid r.addr = true → s.memOk r.addr = true → tget [] t.memErr r.addr = [])) ∧
      (r.kind = .fettle → z.left = r.sectorList → (∀ a, memByteAt t a = memByteAt s a) ∧ t = { s with hubs := t.hubs } ∧
        ∀ g slow o, addrHome r.addr = some (g, slow, o) → r.addr % 32 = 0 →
          (s.readSector r.addr).2.2 = true ∨ (s.readSector r.addr).2.1 = 2 →
          ((t.hub g).mapout.any fun e => e.slow == slow && e.sector == o / 32) = true ∨ (t.hub g).fetListFull = true)) ∧
  (∀ (s : State) (h : Nat) st (p : Nat → Bool), (∀ k, thas (s.hub h).sramErr k = true → k / 2 ^ 24 = st → p (k % 2 ^ 24) = false) →
    s.readSram h st p = (s, false)) ∧
  (∀ (s : State) (h : Nat) st w e, (s.hub h).sramErr = [(sramKey st w, e)] → st < 3 → w < 2 ^ 24 → ∃ t x, s.readSram h st (· == w) = (t, x) ∧
    let d := secded e
    (x = true ↔ d.bad = true ∨ st ≠ 0 ∧ d.mask ≠ 0) ∧ (∀ g, t.hub g = { s.hub g with dross := (t.hub g).dross }) ∧
    (x = false → (∀ c, tget 0 (t.hub h).dross c = if c = 0x08 ∧ d.fixed = true then min 0xFFFF (tget 0 (s.hub h).dross c + 1)
      else tget 0 (s.hub h).dross c) ∧ t.crown = s.crown) ∧
    (x = true → (∀ c, tget 0 (t.hub h).dross c = if c = 0x09 then min 0xFFFF (tget 0 (s.hub h).dross c + 1) else tget 0 (s.hub h).dross c) ∧
      t.crown = { s.crown with reports := s.crown.reports ++ [{ die := 48 + h, code := 0x03, type := some 0x06
                                                                body := body [(64, s.stepNo), (3, h), (4, 0x8), (1, 0), (33, w), (2, st)] }] }))

/-- R139 to R141, R144, R155, R176, R194, R216, R222, R269: what a response does at the context, engine or list that waits for it; the response leaves the
queue, and no byte of memory changes. The lanes of a gather are written together, and none of them where one is uncorrectable. -/
def Obligations.MemoryResponses : Prop :=
  (∀ (h : Fin 8) s index r n k c launch pc dest, (s.hub h).resps[index]? = some r → r.req.agent = .thread n k c launch pc dest →
    let x := (s.cluster n k).ctx c
    let one := if r.accepted then 1 else 0
    ∃ t, exec (.memoryResponse h index) s = .next t ∧ (t.hub h).resps = (s.hub h).resps.eraseIdx index ∧
      let y := (t.cluster n k).ctx c
      y.outstanding = x.outstanding - 1 ∧ y.writes = (if x.launch = launch then x.writes - one else x.writes) ∧
      y = { x with outstanding := y.outstanding, writes := y.writes, v := y.v, pend := y.pend, got := y.got, stopped := y.stopped } ∧
      (t.cluster n k).outstanding = (s.cluster n k).outstanding - 1 ∧
      (t.cluster n k).launches = ((s.cluster n k).launches.map fun l => if l.ordinal = launch then { l with writes := l.writes - one } else l) ∧
      ((dest = none ∨ x.launch ≠ launch ∨ r.accepted = true) → y = { x with outstanding := y.outstanding, writes := y.writes } ∧
        t.crown = s.crown) ∧
      (x.launch = launch → r.accepted = false →
        (∀ dst m mask b, dest = some (.regs dst m mask) → r.data = some b → b.length = 64 * m → t.crown = s.crown ∧ y.stopped = x.stopped ∧
          (∀ j, tget 0 y.v j = if 16 * dst ≤ j ∧ j < 16 * (dst + m) ∧ mask.getLsbD (j % 16) = true
            then BitVec.ofNat 32 (leNat ((b.drop (4 * (j - 16 * dst))).take 4)) else tget 0 x.v j) ∧ y.got = x.got ∧
          ∀ q, q ∈ y.pend ↔ q ∈ x.pend ∧ ¬ (dst ≤ q ∧ q < dst + m)) ∧
        (∀ dst lane size b, dest = some (.lane dst lane size) → r.data = some b → t.crown = s.crown ∧ y.stopped = x.stopped ∧
          y.pend = x.pend.erase dst ∧
          let got := x.got ++ [(dst, lane, some (BitVec.ofNat 32 (leNat b)))]
          let mine := got.filter fun g => g.1 == dst
          (dst ∈ y.pend → y.v = x.v ∧ y.got = got) ∧
          (dst ∉ y.pend → y.got = (got.filter fun g => g.1 != dst) ∧
            ((∃ g ∈ mine, g.2.2 = none) → y.v = x.v) ∧
            ((∀ g ∈ mine, g.2.2.isSome = true) → (mine.map fun g => g.2.1).Nodup →
              (∀ g ∈ mine, tget 0 y.v (16 * dst + g.2.1) = g.2.2.getD 0) ∧
              ∀ j, (∀ g ∈ mine, j ≠ 16 * dst + g.2.1) → tget 0 y.v j = tget 0 x.v j))) ∧
        (dest.isSome = true → r.data = none → y.v = x.v ∧ y.stopped = true ∧
          ∃ note, note.die = n ∧ note.code = 0x01 ∧ note.type = some 0x04 ∧ t.crown = { s.crown with reports := s.crown.reports ++ [note] })) ∧
      (∀ q, q ≠ c → (t.cluster n k).ctx q = (s.cluster n k).ctx q) ∧
      (∀ j, j ≠ k → t.cluster n j = s.cluster n j) ∧ (∀ q, q ≠ s.phys n → t.tile q = s.tile q) ∧
      t = { s with hubs := t.hubs, tiles := t.tiles, crown := t.crown }) ∧
  (∀ (h : Fin 8) s index r n e run chunk w (d : DescRun), (s.hub h).resps[index]? = some r → r.req.agent = .engine n e run chunk w →
    let g := (s.ltile n).engine e
    g.run? run = some d →
    ∃ (v t : State), exec (.memoryResponse h index) s = .next t ∧ (v.hub h).resps = (s.hub h).resps.eraseIdx index ∧
      v = { s with hubs := v.hubs } ∧
      (r.accepted = true → onlyTile v t (s.phys n) ∧ t.ltile n = { s.ltile n with engines := (t.ltile n).engines } ∧
        (t.ltile n).engine e = { g with runs := g.runs.map fun x => if x.id = d.id then { d with writes := d.writes - 1 } else x }) ∧
      (∀ b, r.accepted = false → r.data = some b → chunk ≠ d.next → d.dstKind ≠ 2 → (∀ p ∈ d.got, p.1 ≠ d.next) →
        onlyTile v t (s.phys n) ∧ t.ltile n = { s.ltile n with engines := (t.ltile n).engines } ∧
        (t.ltile n).engine e = { g with runs := g.runs.map fun x => if x.id = d.id then { d with got := insertGot d.got chunk b } else x }) ∧
      (∀ b c, r.accepted = false → r.data = some b → chunk = d.next → d.got = [] → d.dstKind ≠ 2 → d.dstKind ≤ 3 →
        d.chunks[chunk]? = some c → (∀ x ∈ g.runs, x.id = d.id → x = d) →
        (d.dstKind = 0 → ∀ w ∈ wrapped c.dst (c.clip b), writable (s.cluster n d.cluster) w) →
        piecesMoved v t n e d chunk [(c, b)] ∧ ∃ q, (t.ltile n).engine e = { g with runs := g.runs.map fun x => if x.id = d.id then q else x } ∧
          q = { d with next := d.next + 1, writes := d.writes + (if d.dstKind = 1 then 1 else 0), data := q.data })) ∧
  (∀ (h : Fin 8) s index r n l words b, (s.hub h).resps[index]? = some r → r.req.agent = .listRead n l words → r.data = some b →
    ∃ (t : State), exec (.memoryResponse h index) s = .next t ∧ (t.hub h).resps = (s.hub h).resps.eraseIdx index ∧
      (t.ltile n).run l = { (s.ltile n).run l with fetched := max ((s.ltile n).run l).fetched words } ∧
      (∀ j, j ≠ l → (t.ltile n).run j = (s.ltile n).run j) ∧ t.ltile n = { s.ltile n with lists := (t.ltile n).lists } ∧
      (∀ q, q ≠ s.phys n → t.tile q = s.tile q) ∧
      t = { s with hubs := t.hubs, tiles := t.tiles, loaded := { s.loaded with sets := t.loaded.sets } } ∧
      let m := s.tileMould n
      let old := lget [] m.words l
      let i := (r.req.addr - (lget (0, 0) m.listAt l).1) / 8
      let new := unpackBits 64 (b.length / 8) (leNat b)
      ((old.drop i).take new.length = new → t.loaded = s.loaded) ∧
      ((old.drop i).take new.length ≠ new → (∃ e ∈ s.mouldSet.tiles, e.1 = (s.role, s.cls, n)) →
        t.tileMould n = m.withWords l (old.take i ++ new ++ old.drop (i + new.length))))

/-- R226, R227, R231, R232, R252 to R254: a fence applies each pending add of its epoch in key order and changes no other byte; a plate
clear makes its plates read zero, and no other; the fettling reader asks for the next sector it covers, and counts its passes. -/
def Obligations.HubUpkeep : Prop :=
  (∀ (h : Fin 8) hits s₀ hd e tiles tok it m, let s := struckHub h hits s₀
    let x := s.hub h
    let listed := (List.range 48).filter fun t => bit tiles t
    let few := x.spill.length + (if x.adds = [] then 0 else 1) ≤ 64
    let log := (lget {} s.loaded.placement.hubs h).spill
    sramClean s → s.Sound → s.hubMarker h 0 = some (.item hd it) → it.body = .fence e tiles tok → s.crown.rebuild = false →
    (∀ t ∈ listed, s.markerSent t e = true) → s.mergeRuns h e x.spill.length = .ok m → (m.readRuns h (m.hub h).spill).2 = false →
    (∀ a ∈ x.adds ++ x.spilled, a.epoch = e → a.addr % 4 = 0 ∧ s.memOk a.addr = true ∧ (s.readSector (sectorOf a.addr)).2.2 = false ∧
      (∀ z ∈ x.slots, a.addr / 32 ∉ z.left) ∧ (few ∨ a.addr + 4 ≤ log.1 ∨ log.1 + log.2 ≤ a.addr)) →
    ∃ (u v t : State), exec (.fence h hits) s₀ = .next t ∧
      v = listed.foldl (fun s n => s.sendSignal (48 + h) n tok 1) u ∧
      hubItemFinished v t h 0 { pos := (s.hubRun h 0).pos, i := (s.hubRun h 0).count (s.hubRun h 0).pos } hd ∧
      (∀ a, addsAt x e a ≠ [] → ∃ l, l.Perm (addsAt x e a) ∧ keyOrder l ∧ (List.range 4).map (fun j => memByteAt u (a + j)) =
        leBytes 4 (l.foldl (fun v y => addValue y v)
          (BitVec.ofNat 32 (leNat ((List.range 4).map fun j => memByteAt s (a + j))))).toNat) ∧
      (∀ b, (∀ a ∈ x.adds ++ x.spilled, a.epoch = e → ¬ (a.addr ≤ b ∧ b < a.addr + 4)) → (few ∨ b < log.1 ∨ log.1 + log.2 ≤ b) →
        memByteAt u b = memByteAt s b) ∧
      (∀ a, a ∈ (u.hub h).adds ++ (u.hub h).spilled ↔ a ∈ x.adds ++ x.spilled ∧ a.epoch ≠ e) ∧
      (u.hub h).fences = e + 1 ∧ onlyMemory s u) ∧
  (∀ (h : Fin 8) s n hd it slow plate count,
    ((s.hubWindow h 5).find? fun w => match w.item.body with | .plateClear _ _ _ => true | _ => false) =
      some { inst := n, head := hd, item := it } →
    it.body = .plateClear slow plate count → (plate + count) * 4096 ≤ (if slow then slowSlice else hbmSlice) → s.Sound → sramClean s →
    (∀ z ∈ (s.hub h).slots, ∀ q ∈ z.left, 32 * q + 32 ≤ sliceAddr h slow (plate * 4096) ∨
      sliceAddr h slow (plate * 4096) + count * 4096 ≤ 32 * q) →
    ∃ (u t : State), exec (.plateClear h) s = .next t ∧ hubItemFinished u t h 5 n hd ∧ onlyMemory s u ∧
      (∀ b n, (u.hub h).valid b n = if b = slow ∧ plate ≤ n ∧ n < plate + count then false else (s.hub h).valid b n) ∧
      (∀ g, g ≠ h.val → u.hub g = s.hub g) ∧
      ∀ a, memByteAt u a = if sliceAddr h slow (plate * 4096) ≤ a ∧ a < sliceAddr h slow (plate * 4096) + count * 4096 then 0
        else memByteAt s a) ∧
  (∀ (h : Fin 8) hits s₀, let s := struckHub h hits s₀
    let x := s.hub h
    x.fetEnable = true → s.power.mitten = false → s.power.quenched = false → x.hbmStacks ≠ 0 →
    (∀ a, s.fettleNext h x.fetCursor = some a → ∃ t, exec (.fettleRead h hits) s₀ = .next t ∧ (t.hub h).fetCursor = a + 32 ∧
      (t.hub h).fetPasses = x.fetPasses ∧ t = { s with hubs := t.hubs } ∧
      t.hubs = ((s.pushReq h queueFettle { kind := .fettle, addr := a }).updHub h fun x => { x with fetCursor := a + 32 }).hubs) ∧
    (∀ a, s.fettleNext h x.fetCursor = none → s.fettleNext h 0 = some a → ∃ t, exec (.fettleRead h hits) s₀ = .next t ∧
      (t.hub h).fetCursor = a + 32 ∧ (t.hub h).fetPasses = x.fetPasses + 1 ∧ t = { s with hubs := t.hubs }))

/-- R334, R335, R339 to R344, R348 to R350, R353, R354, R356: a node starts when its chunk buffers are free; each element is the exact sum
of its slots in slot order, rounded once with the node's own slice, on both paths where it is sampled, and goes out in order; a
backed slot takes the first copy of each chunk, compares the second, and counts one that comes late. -/
def Obligations.ReductionNodes : Prop :=
  (∀ (h : Fin 8) s p hd it rest w, let x := s.hub h
    s.hubWindow h 1 = { inst := p, head := hd, item := it } :: rest → it.body = .node w → (x.nodes.filter fun n => !n.done).length < 64 →
    x.chunkBuffers + 4 * w.backed ≤ 256 → ∃ (u t : State) (n : NodeRun), exec (.treeNode h) s = .next t ∧
      n = { pos := p.pos, i := p.i, op := BitVec.ofNat 32 (s.hubOp hd p.i it), elems := it.elems, w := w, epOut := it.epOut
            node := BitVec.ofNat 16 (w.node + (s.select it.peerSel).toNat), sig := hd.sig } ∧
      onlyHub s u h ∧ u.hub h = { x with nodes := x.nodes ++ [n] } ∧ hubItemFinished u t h 1 p { hd with sig := none }) ∧
  (∀ (h : Fin 8) s index n, (s.hub h).nodes[index]? = some n → nodeReady s h n → ∃ (u t : State) (b : BlockElem) (n' : NodeRun),
    exec (.nodeElement h index) s = .next t ∧
    let vs := nodeVals s h n
    let sum := if n.w.norm then normSum vs else (nodeSum vs).1
    b.main = sum ∧ b.second = (if n.w.norm = false ∧ s.sampled n n.next = true then (nodeSum (secondVals s h n)).1 else sum) ∧
    b.origin = (if n.w.norm then none else originOf n.w.slots vs (nodeSum vs).2) ∧
    (n.w.gaunt = false → b.entries = []) ∧
    n' = { n with next := n.next + 1, block := n.block ++ [b], invalid := n.invalid || ((nodeSum vs).2 && !n.w.norm) } ∧
    (∀ e, ((u.hub h).ep e).data =
      ((s.hub h).ep e).data.drop (n.w.slots.filter fun z => !z.bkp && z.primary == e).length) ∧
    (∀ g, g ≠ h.val → u.hub g = s.hub g) ∧ keepsStores (s.hub h) (u.hub h) ∧ (u.hub h).nodes = (s.hub h).nodes ∧ onlyHubs s u ∧
    if n.w.outWire = 2 ∧ n'.block.length < 256 ∧ n'.next < n.elems then t = u.setNode h index n'
    else
      let first := n'.next - n'.block.length
      let r := s.roundBlock n' first
      (∀ x ∈ n'.block, x.entries = []) → (n.w.gcmp = true → ∀ x ∈ r.2.zipIdx, s.sampled n (first + x.2) = true → x.1.1.bits = x.1.2.bits) →
      ∃ m : NodeRun, m = { n' with block := [], done := decide (n'.next = n.elems), overflow := m.overflow, origin := m.origin
                                   outs := n'.outs ++ r.2.map fun x => BitVec.ofNat 64 x.1.bits
                                   chunks := n'.chunks.filter fun c =>
                                     decide (n'.next < (c.chunk + 1) * chunkLen (lget {} n.w.slots c.slot).wire) } ∧
        let entries := if n.w.outWire = 0 ∨ n.w.norm = true then [] else r.2.zipIdx.filterMap fun x =>
          if s.sampled n (first + x.2) then
            some ({ elem := first + x.2, scale := r.1.getD 0, value := BitVec.ofNat 16 x.1.2.bits } : GEntry) else none
        let base := ((u.hub n.w.outHub).ep n.epOut).count - first
        let sent := (u.pushGaunt n.w.outHub n.epOut base entries).pushElems n.w.outHub n.epOut
          (r.2.map fun x => { bits := BitVec.ofNat 64 x.1.bits, scale := r.1 })
        t = if n'.next = n.elems then (sent.setNode h index m).hubItemSignal h n.sig else sent.setNode h index m) ∧
  (∀ (h : Fin 8) s index n, (s.hub h).nodes[index]? = some n → n.done = false → n.stopped = false → (s.hub h).firstOf n = true →
    n.elems ≤ n.next → exec (.nodeElement h index) s = .next ((s.setNode h index { n with done := true }).hubItemSignal h n.sig)) ∧
  (∀ (s : State) (n : NodeRun) first i b, n.block[i]? = some b →
    let rnd := Rnd.sr (laneSlice s.seed 0x03 s.stepNo n.node.toNat n.op (first + i) 0)
    (n.w.outWire = 0 → (s.roundBlock n first).1 = none ∧
      (s.roundBlock n first).2[i]? = some (encode .f32 rnd true b.main, encode .f32 rnd true b.second)) ∧
    (n.w.outWire = 1 → (s.roundBlock n first).1 = none ∧
      (s.roundBlock n first).2[i]? = some (encode .bf16 rnd true b.main, encode .bf16 rnd true b.second))) ∧
  (∀ (h : Fin 8) (s : State) index (slot : Fin 8) backup (n : NodeRun) (z : NodeSlot), let k := slot.val
    let copy := b2n backup
    let c := ((n.chunkDone.find? fun d => d.1 == k && d.2.1 == copy).map fun d => d.2.2).getD 0
    let len := min (chunkLen z.wire) (n.elems - c * chunkLen z.wire)
    let ep := if backup then z.backup else z.primary
    let data := ((s.hub h).ep ep).data
    (s.hub h).nodes[index]? = some n → n.w.slots[k]? = some z → z.bkp = true → n.stopped = false → 0 < len → len ≤ data.length →
    (s.hub h).firstCopy n k copy (chunkLen z.wire) = true →
    let done := (n.chunkDone.filter fun d => !(d.1 == k && d.2.1 == copy)) ++ [(k, copy, c + 1)]
    let known := n.chunks.find? fun x => x.slot == k && x.chunk == c
    let retired := c * chunkLen z.wire + len ≤ n.next - n.block.length
    ((retired ∨ known.isSome = true ∨ (n.chunks.filter fun x => x.slot == k).length < 4) →
      ∃ (t : State) (m : NodeRun), exec (.backupChunk h index slot backup) s = .next t ∧
        (∀ e, ((t.hub h).ep e).data = if e = ep then data.drop len else ((s.hub h).ep e).data) ∧
        (t.hub h).nodes = (s.hub h).nodes.set index m ∧ (∀ g, g ≠ h.val → t.hub g = s.hub g) ∧
        (retired → m = { n with chunkDone := done } ∧ (t.hub h).late = min 0xFFFF ((s.hub h).late + 1) ∧ t = { s with hubs := t.hubs }) ∧
        (¬ retired → known = none → t = { s with hubs := t.hubs } ∧ m = { n with chunkDone := done, chunks := n.chunks ++ [
          { slot := k, chunk := c, used := data.take len, fromBackup := backup }] }) ∧
        (∀ u : ChunkSt, ¬ retired → known = some u →
          m.chunks = (n.chunks.map fun x => if x.slot == k && x.chunk == c then { x with other := true } else x) ∧
          if u.used.map (fun e : Elem => (e.bits, e.scale)) = (data.take len).map (fun e : Elem => (e.bits, e.scale)) then
            m.stopped = false ∧ t = { s with hubs := t.hubs }
          else m.stopped = true ∧ (t.hub h).backupBad = true ∧ tget 0 (t.hub h).dross 0x15 = min 0xFFFF (tget 0 (s.hub h).dross 0x15 + 1) ∧
            ∃ r, t.crown.reports = s.crown.reports ++ [r] ∧ r.code = 0x0E ∧ r.die = 48 + h.val)) ∧
    (¬ retired → known = none → 4 ≤ (n.chunks.filter fun x => x.slot == k).length →
      exec (.backupChunk h index slot backup) s = .next s))

/-- R309, R310, R315, R317, R319 to R327, R330, R331: an UPDATE item starts with its learning rate; each element reads the committed bank,
writes recipe state, master and working copy to the other bank and no other byte, and sends the copy on; the last one writes the
norm partial and ends the item; N2 is delivered once; digests of peers are compared. -/
def Obligations.UpdateItems : Prop :=
  (∀ (h : Fin 8) (s : State) p hd it rest w, let x := s.hub h
    let i := p.i
    let a := s.itemAddr hd i w.lrt.1 w.lrt.2 0
    let place := fun (y : Nat × Nat) => s.itemAddr hd i y.1 y.2 0
    let scale : W32 := if w.lsSel = 0 then 0x3F800000 else (s.select w.lsSel).setWidth 32
    s.hubWindow h 2 = { inst := p, head := hd, item := it } :: rest → it.body = .update w → x.upds.length < 64 →
    (w.clip = true → x.n2.isSome = true) → scaleOk scale = true → s.crown.rebuild = false → quiet s → canRead s a 8 → canRead s (a + 8) (16 * memLe s a 8) →
    (w.recipe = 2 → canRead s (place w.sec + s.cb * s.bankSpan) (4 * (it.elems / w.cols))) →
    ∃ (u t : State) (n : UpdRun), exec (.update h) s = .next t ∧ hubItemFinished u t h 2 p { hd with sig := none } ∧
      (∀ g, g ≠ h.val → hubRead (s.hub g) (u.hub g)) ∧
      hubRead { x with upds := x.upds ++ [n], updStarted := x.updStarted + 1 } (u.hub h) ∧
      n = { pos := p.pos, w := w, elems := it.elems, fmt := it.fmt, epIn := it.epIn, epOut := it.epOut, op := BitVec.ofNat 32 (s.hubOp hd i it)
            masters := place (it.sel, it.addr), mom := place w.mom, sec := place w.sec, col := place w.col, wc := place w.wc
            nrm := place w.nrm, rho := rnDiv (f32 0x3F800000) (f32 scale), clipF := if w.clip then clipFactor w.tau (x.n2.getD 0) else 0x3F800000
            b1c := rnSub 0x3F800000 w.beta1, b2c := rnSub 0x3F800000 w.beta2, invC := rnDiv (f32 0x3F800000) (Num.ofInt w.cols)
            invR := rnDiv (f32 0x3F800000) (Num.ofInt (if w.cols = 0 then 0 else it.elems / w.cols : Nat)), eta := n.eta, kappa := n.kappa
            ord := x.updStarted, stopped := n.stopped, sig := hd.sig } ∧
      (lrGood s a → n.stopped = false ∧ u = { s with hubs := u.hubs } ∧ lrIs s a s.stepNo n.eta ∧ (w.recipe = 2 →
        let mu := rnMul (((List.range (it.elems / w.cols)).map fun j =>
          wordAt s (place w.sec + s.cb * s.bankSpan + 4 * j)).foldl rnAdd 0) n.invR
        n.kappa = if (f32 mu).isZero then 0 else rnDiv (f32 0x3F800000) (f32 mu))) ∧
      (¬ lrGood s a → n.stopped = true ∧ ∃ e,
        ((e = 0 ∧ ¬ (1 ≤ memLe s a 8 ∧ memLe s a 8 ≤ 4096)) ∨ (1 ≤ e ∧ e < memLe s a 8 ∧ lrStart s a e ≤ lrStart s a (e - 1) ∧
          memLe s a 8 ≤ 4096 ∧ ∀ j, 1 ≤ j → j < e → lrStart s a (j - 1) < lrStart s a j)) ∧
        let note : Report := { die := 48 + h.val, code := 0x18, body := body [(64, s.stepNo), (3, h.val), (16, p.pos), (16, e)] }
        u = { s with hubs := u.hubs, crown := { s.crown with reports := s.crown.reports ++ [note] } })) ∧
  (∀ (h : Fin 8) (s : State) index n (g : Elem) rest (u m' v' : W32), let x := s.hub h
    let i := n.next
    let k := i % n.w.cols
    let rd := s.cb * s.bankSpan
    let w := wordAt s (n.masters + rd + 4 * i)
    let r := wordAt s (n.sec + rd + 4 * (i / n.w.cols))
    let grad := rnMul (g.bits.setWidth 32) n.rho
    let clipped := if n.w.clip then rnMul grad n.clipF else grad
    let w1 := if n.w.decay then rnSub w (rnMul n.eta (rnMul n.w.lambda w)) else w
    let w' := rnSub w1 (rnMul n.eta u)
    let acc := rnAdd (if k = 0 then 0 else n.rowAcc) (rnMul clipped clipped)
    let row := rnAdd (rnMul n.w.beta2 r) (rnMul n.b2c (rnMul acc n.invC))
    let copy := encode ((Fmt.ofCode n.fmt).getD .bf16)
      (if n.w.wcSr then .sr (laneSlice s.seed 0x05 s.writeGen 0 n.op (i / 4) (i % 4)) else .rne) n.w.wcOvf (f32 w')
    let writes := updWrites s n m' v' row w' copy.bits
    let last := decide (i + 1 = n.elems)
    x.upds[index]? = some n → n.stopped = false → (∀ m ∈ x.upds.take index, m.pos ≠ n.pos) → n.rebuild = false → i < n.elems →
    (x.ep n.epIn).data = g :: rest → quiet s → s.tracing = false → s.crown.rebuild = false → n.w.recipe ≤ 3 → s.Sound → (∀ p ∈ s.stateAddrs n i, canRead s p 4) →
    (∀ p ∈ writes, canStore s p.1 p.2) →
    recipeIs n clipped (wordAt s (n.mom + rd + 4 * i)) (wordAt s (n.sec + rd + 4 * i)) r (wordAt s (n.col + rd + 4 * k)) u m' v' →
    ∃ (v t : State) (n' : UpdRun), exec (.updateElement h index) s = .next t ∧
      (∀ a, memByteAt v a = writes.foldl laid (memByteAt s) a) ∧ onlyMemory s v ∧
      (∀ e, (v.hub h).ep e = if e = n.epIn then { x.ep e with data := rest } else x.ep e) ∧
      tget 0 (v.hub h).dross 0x19 = min 0xFFFF (tget 0 x.dross 0x19 + if copy.ovf = true ∧ n.overflow = false then 1 else 0) ∧
      (∀ q, hubWork (s.hub q) (v.hub q)) ∧ (∀ q, q ≠ h.val → (v.hub q).eps = (s.hub q).eps ∧ (v.hub q).tags = (s.hub q).tags) ∧
      n' = { n with next := i + 1, rowAcc := acc, colAcc := n'.colAcc, overflow := n.overflow || copy.ovf
                    nonfinite := n.nonfinite || badF grad || badF w', digest := crc64From n.digest (leBytes 4 w'.toNat)
                    q := BitVec.ofNat 64 (fpAdd .f64 (decode .f64 n.q.toNat)
                      (decode .f64 (fpMul .f64 (f32 grad) (f32 grad)).bits)).bits } ∧
      (∀ j, tget 0 n'.colAcc j = if n.w.recipe = 2 ∧ j = k then rnAdd (tget 0 n.colAcc j) (rnMul clipped clipped) else tget 0 n.colAcc j) ∧
      let sent := if n.epOut = 0xFFF then v else v.pushElems h n.epOut [
        { bits := BitVec.ofNat 64 copy.bits, tag := if last then some (.prov s.writeGen) else none }]
      (i + 1 < n.elems → t = sent.setUpd h index n') ∧
      (i + 1 = n.elems → n.w.recipe ≠ 2 → s.digestDue n.w = false →
        canStore s (n.nrm + (1 - s.cb) * s.bankSpan) ((leBytes 8 n'.q.toNat).map some) → updEnded sent t h index n')) ∧
  (∀ (h : Fin 8) (s : State) index n, (s.hub h).upds[index]? = some n → n.stopped = false → n.rebuild = false → n.elems ≤ n.next →
    (∀ m ∈ (s.hub h).upds.take index, m.pos ≠ n.pos) → quiet s → s.tracing = false → s.crown.rebuild = false → s.Sound → n.w.recipe ≠ 2 →
    s.digestDue n.w = false → canStore s (n.nrm + (1 - s.cb) * s.bankSpan) ((leBytes 8 n.q.toNat).map some) →
    ∃ t, exec (.updateElement h index) s = .next t ∧ updEnded s t h index n) ∧
  (∀ (h : Fin 8) (s : State) index n, (s.hub h).upds[index]? = some n → n.rebuild = false → n.next < n.elems →
    ((s.hub h).ep n.epIn).data = [] → exec (.updateElement h index) s = .next s) ∧
  (∀ (h : Fin 8) (s : State) index n, let x := s.hub h
    let a := n.masters + s.cb * s.bankSpan + 4 * n.next
    let copy := encode ((Fmt.ofCode n.fmt).getD .bf16)
      (if n.w.wcSr then .sr (laneSlice s.seed 0x05 s.writeGen 0 n.op (n.next / 4) (n.next % 4)) else .rne) n.w.wcOvf (f32 (wordAt s a))
    let piece := elemPiece (n.wc + s.cb * s.bankSpan) n.next n.elems (((Fmt.ofCode n.fmt).getD .bf16).width / 8) copy.bits
    x.upds[index]? = some n → n.stopped = false → n.rebuild = true → n.next + 1 < n.elems →
    (∀ m ∈ x.upds.take index, m.pos ≠ n.pos) → quiet s → s.tracing = false → s.crown.rebuild = true → s.Sound → canRead s a 4 → canStore s piece.1 piece.2 → ∃ (v t : State),
      exec (.updateElement h index) s = .next t ∧ (∀ b, memByteAt v b = laid (memByteAt s) piece b) ∧ onlyMemory s v ∧
      (∀ q, hubWork (s.hub q) (v.hub q)) ∧ (v.hub h).eps = x.eps ∧
      t = (if n.epOut = 0xFFF then v else v.pushElems h n.epOut [{ bits := BitVec.ofNat 64 copy.bits }]).setUpd h index
        { n with next := n.next + 1 }) ∧
  (∀ (h : Fin 8) (s : State), let x := s.hub h
    (x.normQ = [] → exec (.normDelivery h) s = .next s) ∧
    (∀ v rest, x.normQ = v :: rest → ∃ t, exec (.normDelivery h) s = .next t ∧ (∀ g, g ≠ h.val → t.hub g = s.hub g) ∧
      t = { s with hubs := t.hubs, crown := t.crown } ∧
      (x.n2 = none → t.hub h = { x with normQ := rest, n2 := some v } ∧ t.crown = s.crown) ∧
      (x.n2.isSome = true → t.hub h = { x with normQ := rest } ∧ t.crown = { s.crown with reports := s.crown.reports ++ [
        { die := 48 + h.val, code := 0x14, body := body [(64, s.stepNo), (3, h.val)] }] }))) ∧
  (∀ m (h : Fin 8) b (s u : State), takenNow s m (.digest b) h u → ∃ t, exec (.digest m h b) s = .next (answered s m t) ∧
    (∀ g, g ≠ h.val → t.hub g = u.hub g) ∧ t = { u with hubs := t.hubs, crown := t.crown } ∧
    match (u.hub h).ownDig.find? fun d => d.1 == m.step.toNat && d.2.1 == b.op with
    | none => t.crown = u.crown ∧
        t.hub h = { u.hub h with peerDig := (u.hub h).peerDig ++ [(m.src.toNat, m.step.toNat, b.op, b.digest)] }
    | some d => if d.2.2 = b.digest then t.crown = u.crown ∧ t.hub h = { u.hub h with
          needDig := (u.hub h).needDig.filter fun d => !(d.1 == m.src.toNat && d.2 == b.op) }
        else t.hub h = { u.hub h with dross := (t.hub h).dross, updDigestBad := true } ∧
          (∀ c, tget 0 (t.hub h).dross c = if c = 0x16 then min 0xFFFF (tget 0 (u.hub h).dross c + 1) else tget 0 (u.hub h).dross c) ∧
          let note := body [(64, u.stepNo), (3, h.val), (32, b.op.toNat), (11, m.src.toNat), (64, d.2.2.toNat), (64, b.digest.toNat)]
          t.crown = { u.crown with reports := u.crown.reports ++ [{ die := 48 + h.val, code := 0x10, body := note }] })

/-- R212, R285, R290, R353, R359 to R361, R363, R365, R393, R402 to R404, R408, R445, R457: LADLE gives the same elements to every output,
to memory and to N2; TIER moves a range between the tiers; PORT_SEND sends a stream on its own port, a checkpoint's streams first, and
a port that is not connected is a fault that stops its list; PORT_RECV
delivers what has come of its stream to its endpoint, to memory or both, or refuses it without credit, and is done once all of it and
of its gauntlet sub-stream has passed; CKPT_SEND reads the next range of a checkpoint. -/
def Obligations.HubStreams : Prop :=
  (∀ (h : Fin 8) (s : State) p hd it wsel write wbank norm waddr outs, let i := p.i
    let f := (Fmt.ofCode it.fmt).getD .f32
    let a := s.itemAddr hd i wsel waddr (s.bankOut wbank)
    ((s.hubWindow h 5).find? fun w => match w.item.body with
      | .ladle _ _ _ _ _ _ => s.inputReady h w.item
      | _ => false) = some { inst := p, head := hd, item := it } →
    it.body = .ladle wsel write wbank norm waddr outs → canTake s h hd i it → s.Sound → quiet s →
    ∃ (u v w t : State) (els : List Elem) (gaunt : List GEntry), exec (.ladle h) s = .next t ∧ takenIn s h hd i it els gaunt u ∧
      v = outs.foldl (fun s o => (s.pushGaunt o.1 o.2 ((s.hub o.1).ep o.2).count gaunt).pushElems o.1 o.2 els) u ∧
      let b := streamBytes f els
      let q := if norm then w.updHub h fun x => { x with normQ := x.normQ ++ (els.map Elem.bits).take 1 } else w
      (write = false → w = v) ∧ (write = true → canStore s a (b.map some) → landedAt v w h a b) ∧
      hubItemFinished (q.traceStream h (32 * (48 + h) + 5) b) t h 5 p hd) ∧
  (∀ (h : Fin 8) (s : State) p hd it raw, let i := p.i
    let n := packedBytes ((Fmt.ofCode it.fmt).getD .f32) it.elems
    let a := s.itemAddr hd i it.sel it.addr (s.bankAdd it.bankSel)
    let dst := Config.tierDest raw.1 raw.2.1 raw.2.2 % 2 ^ 42
    let there := s.memOk dst = true ∧ s.memOk (dst + n - 1) = true ∧
      (s.tracing = true → ∀ r ∈ s.tagRanges h, overlaps dst n r.2.1 r.2.2 = false)
    ((s.hubWindow h 5).find? fun w => match w.item.body with | .tier _ => true | _ => false) =
      some { inst := p, head := hd, item := it } → it.body = .tier raw → quiet s → canRead s a n → s.Sound →
    let b := (List.range n).map fun j => memByteAt s (a + j)
    (there → canStore s dst (b.map some)) → ∃ (u w t : State), exec (.tier h) s = .next t ∧ u = { s with hubs := u.hubs } ∧
      (∀ g, hubRead (s.hub g) (u.hub g)) ∧ (there → writtenAt u w dst b) ∧ (¬ there → w = u) ∧
      hubItemFinished w t h 5 p hd) ∧
  (∀ (a : PortAt) (s : State), let h := a.hub.val
    let m := a.port.val
    ((s.port h m).up = false → (s.wire h m).1 = true → exec (.portSend a) s = .next s) ∧
    ∀ p hd it dstHub ckpt gaunt win, let i := p.i
      let f := (Fmt.ofCode it.fmt).getD .f32
      let peer := (s.sel64 it.peerSel it.peer).toNat % 2048
      it.body = .portSend dstHub ckpt gaunt win →
      (s.ckptSendAt h m = none → ((s.hubWindow h (3 + m)).find? fun w => match w.item.body with
        | .portSend _ _ _ _ => s.inputReady h w.item
        | _ => false) = some { inst := p, head := hd, item := it } → canTake s h hd i it →
        ((s.wire h m).1 = false → ∃ (u v t : State) (els : List Elem) (g : List GEntry), exec (.portSend a) s = .next t ∧ takenIn s h hd i it els g u ∧
          let note := body [(64, s.stepNo), (3, h), (3, 6), (32, s.hubOp hd i it), (11, peer), (16, p.pos)]
          v = { u with crown := { u.crown with reports := u.crown.reports ++ [{ die := 48 + h, code := 0x07, body := note }] } } ∧
          hubStopped v t h (3 + m)) ∧
        ((s.wire h m).1 = true → (s.port h m).up = true → ∃ (u t : State) (els : List Elem) (g : List GEntry), exec (.portSend a) s = .next t ∧
          takenIn s h hd i it els g u ∧
          let x : StreamHead := { step := s.writeGen, kind := if s.crown.rebuild then 3 else 0, dst := peer, hub := dstHub, fmt := it.fmt
                                  op := s.hubOp hd i it, elems := els.length, win := win, offset := 0 }
          let v := streamSent u h m x (streamBytes f els) (lastTag els)
          let w := if gaunt then v.sendGaunt h m x (els.any fun e => e.scale.isSome) g else v
          hubItemFinished (w.traceStream h (32 * (48 + h) + 3 + m) (streamBytes f els)) t h (3 + m) p hd)) ∧
      (∀ off k n, s.ckptSendAt h m = some (p.pos, it, off, k, n) → n ≤ ((s.hub h).ep it.epIn).data.length → (s.wire h m).1 = true →
        (s.port h m).up = true → ∃ t, exec (.portSend a) s = .next t ∧
          let e := (s.hub h).ep it.epIn
          let x : StreamHead := { step := k, kind := 1, dst := peer, hub := dstHub, fmt := it.fmt
                                  op := (s.sel64 0 it.op).toNat % 2 ^ 32, elems := n, win := win, offset := off }
          let u := s.updHub h fun x => x.setEp it.epIn { e with data := e.data.drop n }
          let b := streamBytes f (e.data.take n)
          let v := streamSent u h m x b (lastTag (e.data.take n))
          let w := if gaunt then v.sendGaunt h m x ((e.data.take n).any fun y => y.scale.isSome) [] else v
          t = (w.traceStream h (32 * (48 + h) + 3 + m) b).ckptSettle h)) ∧
  (∀ (a : PortAt) (s : State) (w : HubAt) disp gauntIn q r ga, let h := a.hub.val
    let l := 3 + a.port.val
    let it := w.item
    let x := StreamHead.decode r.head
    let p := streamParts (cameBytes r)
    let was := (streamParts r.bytes).1.length
    let els := cameElems it r
    let dst := s.itemAddr w.head w.inst.i it.sel it.addr (s.bankOut it.bankSel)
    ((s.hubWindow h l).findSome? fun w => match w.item.body with
      | .portRecv disp g => (s.arrived h w.item (s.hubOp w.head w.inst.i w.item) g).bind fun x =>
          if x.1.2.waits || x.2.any fun y => y.2.waits then some (w, disp, g, x.1, x.2) else none
      | _ => none) = some (w, disp, gauntIn, (q, r), ga) →
    (r.refusing.isSome = true → exec (.portRecv a) s = .next s.resumeRx) ∧
    (r.refusing = none → disp ≠ 1 → s.credit h it.epOut = false →
      exec (.portRecv a) s = .next (s.updPort (q / 2) (q % 2) fun o => o.refuseRx r)) ∧
    (r.refusing = none → (disp ≠ 1 → s.credit h it.epOut = true) → ga = none → (∃ tr, p.2 = some tr ∧ pcrcOk p.1 tr = false) →
      exec (.portRecv a) s = .next ((s.streamFault x.hub 4 x.op x.src (if x.kind = 1 then 0xFFFF else ((s.recvItem x).map Prod.fst).getD 0xFFFF)).updPort
        (q / 2) (q % 2) fun o => o.setRx { r with bound := .dropped, held := [] })) ∧
    (r.refusing = none → (disp ≠ 1 → s.credit h it.epOut = true) → (∀ tr, p.2 = some tr → pcrcOk p.1 tr = true) →
      (∀ y ∈ ga, ∀ tr, (streamParts (cameBytes y.2)).2 = some tr → pcrcOk (streamParts (cameBytes y.2)).1 tr = true) → s.Sound → quiet s →
      (disp ≠ 0 → canStore s (dst + was) ((p.1.drop was).map some)) → ∃ (y u v t : State) (all : Bool), exec (.portRecv a) s = .next t ∧
        gauntPassed s y h it.epOut (((s.hub h).ep it.epOut).count - r.passed) gauntIn ga (decide (disp ≠ 1)) all ∧
        (disp = 1 → u = y) ∧ (disp ≠ 1 → u = (y.updHub h fun z => z.setEp it.epOut { z.ep it.epOut with src := some x.src }).pushElems h it.epOut
          (els.drop r.passed) all) ∧
        (disp = 0 ∨ p.1.length = was → v = u) ∧ (disp ≠ 0 → p.1.length ≠ was → landedAt u v h (dst + was) (p.1.drop was)) ∧
        let z := delivers v q r (cameCount it r)
        let o := z.closeRx q r.id
        (all = false ∨ p.2 = none → t = z) ∧
        (all = true → p.2.isSome = true → hubItemFinished ((match ga with | some g => o.closeRx g.1 g.2.id | none => o).traceStream h
          (32 * (48 + h) + l) p.1) t h l w.inst w.head))) ∧
  (∀ (h : Fin 8) (s : State) k cls i rest, let x := s.hub h
    x.ckpt = (k, cls, i) :: rest →
    (∀ hd it, (s.ckptItems cls h)[i]? = some (hd, it) → quiet s →
      let a := s.itemAddr hd 0 it.sel it.addr (k % 2 * s.bankSpan)
      canRead s a it.elems → ∃ t, exec (.ckptSend h) s = .next t ∧ t = { s with hubs := t.hubs } ∧
        (∀ g, g ≠ h.val → hubRead (s.hub g) (t.hub g)) ∧
        hubRead { x with ckpt := (t.hub h).ckpt, eps := (t.hub h).eps } (t.hub h) ∧ (t.hub h).ckpt = (k, cls, i + 1) :: rest ∧
        let els : List Elem := (List.range it.elems).map fun j => { bits := (memByteAt s (a + j)).setWidth 64 }
        ∀ e, (t.hub h).ep e = if e = it.epOut then { x.ep e with data := (x.ep e).data ++ withTag (s.memTag h a it.elems) els }
          else x.ep e) ∧
    ((s.ckptItems cls h)[i]? = none → ∃ t, exec (.ckptSend h) s = .next t ∧ onlyHub s t h ∧ t.hub h = { x with ckpt := (t.hub h).ckpt } ∧
      (t.hub h).ckpt = if ∃ y ∈ s.ckptItems cls h, (x.ep y.2.epOut).data ≠ [] then x.ckpt else rest)) ∧
  (∀ (h : Fin 8) (s : State), (s.hub h).ckpt = [] → exec (.ckptSend h) s = .next s)

/-- R368, R370, R445 to R448, R451, R454, R469, R472, R513, R572: a report reaches the crown, is logged and, where it is the first of a running
job, told to every rank and acted on; a notice of a peer is acted on unless it is older than the device's epoch; a deferred abort
begins when its window passes; the abort ends once every hub has finished what it accepted; a record is logged. -/
def Obligations.FaultHandling : Prop :=
  (∀ index (s : State), (s.crown.reports[index]? = none → exec (.faultReport index) s = .next s) ∧
    ∀ r, s.crown.reports[index]? = some r → (s.crownReach r.die = false → exec (.faultReport index) s = .next s) ∧
      (s.crownReach r.die = true → ∃ t, exec (.faultReport index) s = .next t ∧
      faultTaken { s with crown := { s.crown with reports := s.crown.reports.eraseIdx index } } t r)) ∧
  (∀ (s : State) d, s.crownReach d = true ↔ d = 56 ∨
    (((s.hub (if d < 48 then d / 6 else d - 48)).chan 13).failed 13 = false ∧
      (48 ≤ d ∨ ((s.hub (if d < 48 then d / 6 else d - 48)).chan (s.phys d % 7)).failed (s.phys d % 7) = false))) ∧
  (∀ m (b : NoticeBody) (s : State), let h := m.port.val / 2
    let p := m.port.val % 2
    let u := s.updPort h p fun x => (x.prioSeq m (.notice b) 0).1
    (s.port h p).up = true → b.epoch.toNat < s.crown.epoch.toNat → u.prioNext m.port.val = [] →
      exec (.faultNotice m b) s = .next (answered s m u)) ∧
  (∀ m (b : NoticeBody) (s u : State), takenNow s m (.notice b) 0 u →
    ∃ t, exec (.faultNotice m b) s = .next (answered s m t) ∧ match u.crown.rstate with
      | .running => if u.crown.deferring then t = u else faultActedOn u t
      | .restarting => abortedAgain u t
      | .aborting => t = u
      | .idle => t = u
      | .stalled => t = u) ∧
  (∀ s : State, (s.crown.deferring = false → exec .abortDeferTimeout s = .next s) ∧
    (s.crown.deferring = true → s.tracing = false → ∃ t, exec .abortDeferTimeout s = .next t ∧ abortBegun s t true)) ∧
  (∀ s : State, s.crown.rstate = .aborting → s.crown.order = 1 → s.power.quenching = false → s.power.quenched = false →
    ((∃ h x, (h, x) ∈ s.hubs ∧ x.slots ≠ []) → exec .localAbortDone s = .next s) ∧
    ((∀ h x, (h, x) ∈ s.hubs → x.slots = []) → ∃ t, exec .localAbortDone s = .next t ∧ t.crown.order = 2 ∧
      t.crown.seq = s.crown.seq + 1 ∧ t.crown.held = s.crown.held ∧ t.crown.gen = s.crown.gen ∧ t.crown.rstate = .aborting ∧
      (∀ h, let x := s.hub h
        let y := t.hub h
        y = { x with resps := [], covered := [], tags := y.tags, ports := y.ports, chans := y.chans } ∧
        (∀ c, let z := x.chan c
          y.chan c = if h < 8 ∧ c < 14 ∧ hasChan h c = true then { z with
            state := 4, version := 0, features := 0
            verSent := (z.tx.good c).head?.map fun g =>
              (g, { kind := 1, revision := x.revision, version := 1, features := (Config.features 1).setWidth 64, contract := 1 }) } else z) ∧
        (if s.crown.held.isSome then y.tags = x.tags else provDropped x.tags y.tags) ∧
        ∀ m, h < 8 → m < 2 → y.port m = if (s.wire h m).1 then Port.retrain (x.port m) else x.port m) ∧
      (∀ p, t.tile p = { s.tile p with risers := (t.tile p).risers } ∧
        if s.crown.held.isSome then (t.tile p).risers = (s.tile p).risers else provDropped (s.tile p).risers (t.tile p).risers) ∧
      t = { s with tiles := t.tiles, hubs := t.hubs, crown := t.crown, link := t.link })) ∧
  (∀ index (s : State), (s.crown.records[index]? = none → exec (.eventRecord index) s = .next s) ∧
    ∀ r, s.crown.records[index]? = some r → (s.crownReach r.die = false → exec (.eventRecord index) s = .next s) ∧
      (s.crownReach r.die = true → exec (.eventRecord index) s = .next (({ s with crown := { s.crown with
      records := s.crown.records.eraseIdx index } } : State).logEvent r.type r.die 0 r.body))) ∧
  (∀ (s : State) type die code b, let c := s.crown
    let t := s.logEvent type die code b
    let e : LogEntry := { seq := c.seq + 1, time := BitVec.ofNat 64 (max c.lastTime.toNat (s.time.ns % 2 ^ 64)), gen := BitVec.ofNat 64 c.gen
                          type := BitVec.ofNat 8 type, die := BitVec.ofNat 6 die, code := BitVec.ofNat 8 code, body := b }
    let sent := decide (type = 0x08 ∨ type = 0x09 ∨ type = 0x0B ∨ type = 0x0C)
    let frame : DevFrame := { type := 0x83, payload := e.bytes }
    t.crown.seq = c.seq + 1 ∧ t.crown.lastTime = e.time ∧ t.crown.head = c.head + 1 ∧
    (sent = false → tget {} t.crown.log c.head.toNat = e ∧ (∀ k, k ≠ c.head.toNat → tget {} t.crown.log k = tget {} c.log k) ∧ t.link = s.link) ∧
    (sent = true → s.link.up = true → t.link = s.link.send frame ∧
      tget {} t.crown.log c.head.toNat = { e with read := true }) ∧
    (sent = true → s.link.up = false → s.link.queue.length < 512 → t.link = { s.link with queue := s.link.queue ++ [frame] }) ∧
    t.crown.overwritten = (if thas c.log c.head.toNat = true ∧ (tget {} c.log c.head.toNat).read = false ∧ c.overwritten ≠ 0xFFFFFFFF
      then c.overwritten + 1 else c.overwritten) ∧
    t.crown = { c with seq := t.crown.seq, lastTime := t.crown.lastTime, head := t.crown.head, log := t.crown.log
                       overwritten := t.crown.overwritten } ∧ t = { s with crown := t.crown, link := t.link })

/-- R18, R72, R117, R140, R291, R298, R302 to R304, R318, R524, R525: a step opens once its feed is whole and its manifest passes every check; a
manifest that fails one, and a deadline that passes, are faults. -/
def Obligations.StepOpening : Prop :=
  (∀ s : State, ¬ stepMayOpen s → exec .stepOpen s = .next s) ∧
  (∀ s : State, (s.feed (s.crown.gen + 1)).manifest = none → exec .stepOpen s = .next s) ∧
  (∀ (s : State) m, s.manifestCheck m = none ↔ manifestGood s m) ∧
  (∀ (s : State) m k i, stepMayOpen s → (s.feed (s.crown.gen + 1)).manifest = some m →
    (∀ i, i < m.segs.length → tget false (s.feed (s.crown.gen + 1)).complete i = true) → s.manifestCheck m = some (k, i) →
    ∃ t, exec .stepOpen s = .next t ∧ faultTaken s t { code := 0x12, body := body [(64, s.crown.gen + 1), (3, k), (16, i)] }) ∧
  (∀ (s : State) m, let f := s.feed (s.crown.gen + 1)
    f.manifest = some m → (∃ i, i < m.segs.length ∧ tget false f.complete i = false) → exec .stepOpen s = .next s) ∧
  (∀ (s : State) m, let f := s.feed (s.crown.gen + 1)
    stepMayOpen s → f.manifest = some m → manifestGood s m → (∀ i, i < m.segs.length → tget false f.complete i = true) →
    (∀ n k, n < 48 → k < 48 → s.phys n = s.phys k → n = k) → ∃ u t : State, exec .stepOpen s = .next t ∧
      let len := (lget {} s.mouldSet.classes m.cls).maxLen
      let o : OpenStep := { step := s.crown.gen + 1, cls := m.cls, mapping := s.crown.mapping
                            chunks := if m.cls = 8 ∧ len ≠ 0 then (m.mbs.map fun l => (l + len - 1) / len).sum else 0
                            startNs := BitVec.ofNat 64 (max s.crown.lastTime.toNat (s.time.ns % 2 ^ 64)) }
      stepOpened s u o ∧ u.crown.batchDigest = crc64 (m.raw ++ m.segs.flatMap fun g => readBytes s.mem g.1 g.2.2) ∧
      t = { u with crown := { u.crown with reports := t.crown.reports } } ∧
      (∀ (h p : Nat) (hd : Head) (it : HubItem) (w : UpdWords), h < 8 → (u.hubList h 2)[p]? = some (.item hd it) → it.body = .update w → scaleOk (u.lossScale w) = false →
        ∃ r ∈ t.crown.reports, r.die = 48 + h ∧ r.code = 0x13 ∧
          r.body = body [(64, o.step), (3, h), (16, p), (32, (u.lossScale w).toNat)]) ∧
      ((∀ (h p : Nat) (hd : Head) (it : HubItem) (w : UpdWords), h < 8 → (u.hubList h 2)[p]? = some (.item hd it) → it.body = .update w → scaleOk (u.lossScale w) = true) → t = u)) ∧
  (∀ s : State, s.crown.deadline = false → exec .stepDeadline s = .next s) ∧
  (∀ s : State, s.crown.deadline = true → ∃ (t : State) (d c n : Nat), exec .stepDeadline s = .next t ∧
    faultTaken { s with crown := { s.crown with deadline := false } } t
      { code := 0x08, body := body [(64, s.stepNo), (4, c), (16, n), (64, d)] } ∧
    ∀ o, s.crown.openStep = some o → c = o.cls ∧ n = o.chunks ∧ d = s.mouldSet.step.deadlineFactor *
      ((lget {} s.mouldSet.classes c).expBase + if c = 8 then n * (lget {} s.mouldSet.classes c).expChunk else 0))

/-- R22, R292, R297, R311, R357, R366 to R370, R464, R518, R526: a device votes once its work is done, and every tagged range of the new bank is
written; the coordinator decides on the last vote; an outcome commits the step, skips it, ends the job or begins an abort. -/
def Obligations.StepOutcomes : Prop :=
  (∀ (s : State) g, s.unwritten g = none ↔
    ∀ h, h < 8 → ∀ r ∈ (s.taggedRanges h).zipIdx, tget .empty (s.hub h).tags (2 * r.2 + g % 2) = .prov g) ∧
  (∀ (s : State) o, s.crown.openStep = some o → (o.replay = true ∨ s.crown.voted.isSome = true ∨ s.crown.deferring = true ∨
    s.workDone = false ∨ s.lossDone = false ∨ (∃ e ∈ s.hubs, e.2.needDig ≠ [])) → exec .voteSend s = .next s) ∧
  (∀ (s : State) o, s.crown.openStep = some o → o.replay = false → s.crown.voted = none → s.crown.deferring = false → s.workDone = true →
    s.lossDone = true → (∀ e ∈ s.hubs, e.2.needDig = []) → (∀ r ∈ s.crown.reports, r.code ≠ 0x0C) →
    ∃ t, exec .voteSend s = .next t ∧ match s.unwritten o.step with
      | some (h, i) => t = { s with crown := { s.crown with reports := s.crown.reports ++ [
          { die := 48 + h, code := 0x0C, body := body [(64, o.step), (3, h), (16, i)] }] } }
      | none =>
        let bad := s.hubs.any fun e => e.2.nonfinite
        let b : VoteBody := { nonfinite := bad, cls := BitVec.ofNat 4 o.cls }
        let u : State := { s with crown := { s.crown with voted := some bad } }
        if s.crown.rankNow.toNat = s.coord then voteTaken u t s.coord o.step b else t = u.sendPrio s.coord o.step (.vote b)) ∧
  (∀ m b (s u : State), takenNow s m (.vote b) 0 u → ∃ t, exec (.vote m b) s = .next (answered s m t) ∧
    voteTaken u t m.src.toNat m.step.toNat b) ∧
  (∀ m b (s u : State), takenNow s m (.outcome b) 0 u → ∃ t, exec (.outcome m b) s = .next (answered s m t) ∧
    let g := m.step.toNat
    match u.crown.openStep, u.crown.held with
    | some o, _ =>
      if o.replay = true ∨ o.step ≠ g ∨ (u.crown.voted = none ∧ b.discard = false) then t = u
      else
        let v := u.applyOutcome o b.discard b.reason.toNat
        if u.crown.deferring = true ∧ v.crown.rstate = .running ∧ v.crown.openStep = none then abortBegun v t false
        else v.crown.rstate ≠ .running ∨ u.crown.deferring = false → t = v
    | none, some o =>
      if o.step ≠ g then t = u
      else if b.discard = false then t = { u with crown := { u.crown with commitHeld := true } }
      else if b.reason = 4 then t = u.cancelJob g
      else if b.reason = 1 ∧ o.init = false then
        t.crown.gen = g ∧ t.crown.relabel = true ∧ t.crown.held = none ∧ t.crown.voted = none ∧ t.crown.rstate = u.crown.rstate ∧
        (∀ h, provDropped (u.hub h).tags (t.hub h).tags ∧ (h < 8 → (t.hub h).relabel = false)) ∧
        (∀ p, provDropped (u.tile p).risers (t.tile p).risers) ∧ t.mem = u.mem ∧ t.time = u.time
      else (∀ h, provDropped (u.hub h).tags (t.hub h).tags ∧ t.hub h = { u.hub h with tags := (t.hub h).tags }) ∧
        (∀ p, provDropped (u.tile p).risers (t.tile p).risers ∧ t.tile p = { u.tile p with risers := (t.tile p).risers }) ∧
        t = { u with hubs := t.hubs, tiles := t.tiles, crown := { u.crown with held := none, voted := none } }
    | none, none =>
      if b.discard = true ∧ b.reason = 4 ∧ g = u.crown.gen + 1 ∧ (u.crown.job = .active ∨ u.crown.job = .suspended) then t = u.cancelJob g
      else t = u) ∧
  (∀ (s : State) o, o.init = false → ∃ u : State, stepCommitted s u o (s.crown.voted.getD false) ∧
    let n := u.mouldSet.step.ckptEvery
    (¬ (n ≠ 0 ∧ o.step % n = 0 ∧ u.crown.rankNow.toNat < u.mouldSet.ranks) → s.applyOutcome o false 0 = u.boundary o.step true) ∧
    ((n ≠ 0 ∧ o.step % n = 0 ∧ u.crown.rankNow.toNat < u.mouldSet.ranks) →
      ∃ v : State, s.applyOutcome o false 0 = v.boundary o.step true ∧ v.crown = { u.crown with reports := v.crown.reports } ∧
        ∀ h, h < 8 → (v.hub h).ckpt = (u.hub h).ckpt ++ [(o.step, o.cls, 0)])) ∧
  (∀ (s : State) o, o.init = false → let t := s.applyOutcome o true 1
    t.crown.gen = o.step ∧ t.crown.relabel = true ∧ t.crown.openStep = none ∧ t.crown.voted = none ∧ t.crown.attempt = 0 ∧
    t.crown.rstate = s.crown.rstate ∧ thas t.crown.feeds o.step = false ∧
    (∀ h, provDropped (s.hub h).tags (t.hub h).tags ∧ (h < 8 → (t.hub h).relabel = true)) ∧
    (∀ p, provDropped (s.tile p).risers (t.tile p).risers ∧ t.tile p = { s.tile p with risers := (t.tile p).risers }) ∧
    t.mem = s.mem ∧ t.flash = s.flash ∧ t.time = s.time) ∧
  (∀ (s : State) o, s.crown.openStep = some o → let t := s.applyOutcome o true 4
    t.crown.job = .ended ∧ t.crown.rstate = .idle ∧ t.crown.openStep = none ∧ t.crown.gen = s.crown.gen ∧ t.crown.feeds = [] ∧
    t.crown.suspend = none ∧ t.crown.switch = none ∧ thas t.crown.ops 1 = false ∧
    (∀ h, provDropped (s.hub h).tags (t.hub h).tags) ∧ t.mem = s.mem) ∧
  (∀ (s : State) o reason, s.tracing = false → reason ≠ 1 → reason ≠ 4 → abortBegun s (s.applyOutcome o true reason) false)

/-- R305, R313, R314, R372, R375 to R377, R518: a pending relabel copies every tagged range of the committed bank on each hub, and the last
hub ends it; a switch opens its re-shard at the boundary; a phase runs on every rank and ends when the coordinator has heard of all
of them; the last round completes the switch. -/
def Obligations.BoundaryWork : Prop :=
  (∀ (h : Fin 8) (s : State), let g := s.crown.gen
    ((s.hub h).relabel = false ∨ s.crown.relabel = false ∨ (s.crown.rstate ≠ .running ∧ (s.crown.rstate ≠ .restarting ∨ s.crown.order ≠ 8)) →
      exec (.relabelCopyDone h) s = .next s) ∧
    ((s.hub h).relabel = true → s.crown.relabel = true → s.crown.rstate = .running → quiet s → s.Sound →
      (∀ r ∈ s.taggedRanges h, canRead s (r.1 + (g + 1) % 2 * s.bankSpan) r.2 ∧
        canStore s (r.1 + g % 2 * s.bankSpan) (List.replicate r.2 (some 0))) → ∃ u t : State, exec (.relabelCopyDone h) s = .next t ∧
      (∀ a, memByteAt u a = copiedBank s h g a) ∧ onlyMemory s u ∧ bankTagged s u h g ∧ (u.hub h).relabel = false ∧
      (∀ q, q ≠ h.val → (u.hub q).tags = (s.hub q).tags ∧ (u.hub q).relabel = (s.hub q).relabel ∧ hubWork (s.hub q) (u.hub q)) ∧
      if ∃ e ∈ u.hubs, e.2.relabel = true then t = u
      else t = ({ u with crown := { u.crown with relabel := false } } : State).boundary g true)) ∧
  (∀ (s : State) g now, let c := s.crown
    (c.switch = none → c.suspend = none → s.boundary g now = s) ∧
    (∀ after m, c.switch = none → c.suspend = some (after, m) → s.boundary g now = if g < after then s else
      { s with crown := { c with suspend := none, job := .suspended, deadline := false }
               power := if m then { s.power with entering := true } else s.power }) ∧
    (∀ k after m i t, c.switch = some (k, after, m) → after ≤ g →
      (s.loaded.reshards.zipIdx.find? fun t => t.1.fromMap == c.mapping && t.1.toMap == m) = some (t, i) →
      let u : State := { s with crown := { c with reshard := some (i, 0, false), phaseDone := [], reshardIn := [] } }
      s.boundary g now = if now then u.openPhase 0 false else u)) ∧
  (∀ (s : State) round place, (s.crown.reshard = none → s.openPhase round place = s) ∧
    ∀ i r p, s.crown.reshard = some (i, r, p) → let x := lget {} s.loaded.reshards i
      let u := s.openPhase round place
      (round < x.rounds → u = ({ s with crown := { s.crown with
        reshard := some (i, round, place) } } : State).runPhase) ∧
      (x.rounds ≤ round → s.crown.openStep = none → s.crown.switch = none → s.crown.suspend = none → quiet s →
        let v := ({ s with crown := { s.crown with reshard := none, mapping := x.toMap, phaseDone := [], reshardIn := [] } } : State).loadMoulds
        u.crown = v.crown ∧ (∀ h, h < 8 → bankTagged v u h s.crown.gen ∧ (u.hub h).ckpt = (s.hub h).ckpt ++ [(s.crown.gen, v.cls, 0)] ∧
          u.hub h = { v.hub h with tags := (u.hub h).tags, covered := [], badSeen := [], ckpt := (u.hub h).ckpt }) ∧
        u = { v with hubs := u.hubs })) ∧
  (∀ m b (s u : State), takenNow s m (.phase b) 0 u → ∃ t, exec (.phase m b) s = .next (answered s m t) ∧
    if u.crown.rstate = .running then t = u.openPhase b.round.toNat b.place
    else t = { u with crown := { u.crown with
      phaseHeld := true, reshard := u.crown.reshard.map fun r => (r.1, b.round.toNat, b.place) } }) ∧
  (∀ s : State, (s.crown.reshard = none → s.resumeReshard = s) ∧
    ∀ i round place, s.crown.reshard = some (i, round, place) →
      let u : State := { s with crown := { s.crown with phaseHeld := false } }
      s.resumeReshard = if s.crown.rankNow.toNat = s.coord then
          (u.otherRanks.foldl (fun w r => w.sendPrio r s.crown.gen (.phase { round := BitVec.ofNat 16 round, place := place })) u).openPhase round place
        else if s.crown.phaseHeld = true then u.openPhase round place else u) ∧
  (∀ rank b (s : State), (s.crown.rstate ≠ .running → exec (.reshardPhaseDone rank b) s = .next s) ∧
    (s.crown.rstate = .running → ∃ t, exec (.reshardPhaseDone rank b) s = .next t ∧
      if rank ≠ s.crown.rankNow then phaseCounted s t rank.toNat b
      else match s.crown.reshard with
        | none => t = s
        | some (i, round, place) =>
          let mine := (lget {} s.loaded.reshards i).entries.zipIdx.filter fun e =>
            e.1.round == round && e.1.dstRank == s.crown.rankNow.toNat
          if b.round.toNat ≠ round ∨ b.place ≠ place ∨ (place = false ∧ ∃ e ∈ mine, e.2 ∉ s.crown.reshardIn) then t = s
          else if s.crown.rankNow.toNat = s.coord then phaseCounted s t rank.toNat b
          else t = s.sendPrio s.coord s.crown.gen (.phaseDone b)))

/-- R248, R257, R370, R371, R407, R430, R434, R451, R453, R454, R459, R494 to R496: an aborted device that is ready again sends READY; a leader
decides once it has heard of every rank, or when its window passes; at start-up the coordinator collects READYs. -/
def Obligations.RestartReadiness : Prop :=
  (∀ groups (s : State), let wired := (List.range 16).filter fun q => (s.wire (q / 2) (q % 2)).1
    let x := fun (q : Nat) => s.port (q / 2) (q % 2)
    let settled := ∀ q ∈ wired, (x q).up = true ∨ (x q).timedOut = true ∨ (x q).farAsleep = true
    let may := s.crown.rstate = .aborting ∧ s.crown.order = 2 ∧ s.power.quenched = false ∧ s.power.mitten = false ∧ s.startup.refusal = 0 ∧
      s.negotiated = true ∧ settled
    (¬ may → exec (.restartPrepared groups) s = .next s) ∧
    (may → ∃ t, exec (.restartPrepared groups) s = .next t ∧
      let u := (s.repairAll.retrain groups).mapTilesOver.loadMoulds
      if u.isDegraded = true then t = { u with startup := { u.startup with refusal := 0x0B } }
      else t = ((({ u with crown := { u.crown with linkDown := wired.any fun q => !(x q).up, triedRanks := [] } } : State).reachOrder 3).sendReady
        u.coord))) ∧
  (∀ (s : State) rank, let b := s.readyBody false
    let u : State := { s with crown := { s.crown with
      leader := BitVec.ofNat 11 rank, triedRanks := addOnce s.crown.triedRanks rank, substIn := [] } }
    s.sendReady rank = if rank = s.crown.rankNow.toNat then u.leadReady rank (s.crown.epoch + 1) b
      else u.routePrio { u.prioHead rank false (s.crown.gen + 1) with epoch := s.crown.epoch + 1 } (.ready b)) ∧
  (∀ s : State, let b := s.readyBody false
    b.gen = BitVec.ofNat 64 s.crown.gen ∧ b.refusal = s.startup.refusal ∧
    b.flags.getLsbD 0 = s.crown.held.isSome ∧ b.flags.getLsbD 1 = s.crown.relabel ∧ b.flags.getLsbD 2 = s.bankBad ∧
    b.flags.getLsbD 3 = decide (s.mouldSet.ranks ≤ s.crown.rankNow.toNat) ∧ b.flags.getLsbD 4 = s.crown.commitHeld ∧
    b.flags.getLsbD 8 = s.crown.linkDown) ∧
  (∀ (s : State) rank (e : W32) b, let u : State := { s with crown := { s.crown with
      readys := tset s.crown.readys rank (ReadyIn.of b), leading := true
      leadEpoch := if s.crown.leadEpoch.toNat < e.toNat then e else s.crown.leadEpoch } }
    s.leadReady rank e b = if e.toNat ≤ s.crown.epoch.toNat ∨ s.startup.refusal ≠ 0 then s
      else if ∀ r, r < s.loaded.routeRanks → thas u.crown.readys r = true then u.decideRestart else u) ∧
  (∀ m b (s u : State), takenNow s m (.ready b) 0 u → ∃ t, exec (.ready m b) s = .next (answered s m t) ∧
    (m.epoch ≠ 0 → t = u.leadReady m.src.toNat m.epoch b) ∧
    (m.epoch = 0 → u.crown.rankNow.toNat ≠ u.coord → t = u) ∧
    (m.epoch = 0 → u.crown.rankNow.toNat = u.coord → u.startup.started = true → t = u) ∧
    (m.epoch = 0 → u.crown.rankNow.toNat = u.coord → u.startup.started = false → u.header.initSet = 0xFFFF →
      match u.readyConflict m.src.toNat (ReadyIn.of b) with
      | some c => t = { u with crown := { u.crown with readys := [], startWindow := false }
                               startup := { u.startup with peerCode := c, peerRank := m.src } }
      | none => t = ({ u with crown := { u.crown with readys := tset u.crown.readys m.src.toNat (ReadyIn.of b) } } : State).tryStart)) ∧
  (∀ s : State, ((s.crown.rstate ≠ .aborting ∨ s.crown.order ≠ 3) → exec .readyRetryTimeout s = .next s) ∧
    (s.crown.rstate = .aborting → s.crown.order = 3 →
      (∀ r, r < s.mouldSet.ranks → r ∉ s.crown.triedRanks → (∀ q, q < r → q ∈ s.crown.triedRanks) →
        exec .readyRetryTimeout s = .next (s.sendReady r)) ∧
      ((∀ r, r < s.mouldSet.ranks → r ∈ s.crown.triedRanks) →
        exec .readyRetryTimeout s = .next (({ s with crown := { s.crown with triedRanks := [] } } : State).sendReady s.coord)))) ∧
  (∀ s : State, (s.crown.leading = false → exec .leaderWindowExpiry s = .next s) ∧
    (s.crown.leading = true → exec .leaderWindowExpiry s = .next s.decideRestart)) ∧
  (∀ s : State, let n := s.crown.attempt + 1
    let lost := (List.range s.mouldSet.ranks).filter fun r => !thas s.crown.readys r
    (5 ≤ n ∨ (∃ r ∈ s.crown.readys, r.2.flags.getLsbD 8 = true) → lost = [] → let t := s.decideRestart
      t.crown.rstate = .stalled ∧ t.crown.order = 0 ∧ t.crown.attempt = n ∧ t.crown.readys = [] ∧ t.crown.gen = s.crown.gen ∧
      t.crown.epoch = s.crown.epoch ∧ t.mem = s.mem ∧ (∀ h, (t.hub h).tags = (s.hub h).tags)) ∧
    (∀ p, n < 5 → (∀ r ∈ s.crown.readys, r.2.flags.getLsbD 8 = false) → s.plan s.crown.readys = some p → p.substs = [] → lost = [] →
      ∃ u : State, s.decideRestart = u.leadGo s.crown.leadEpoch n p ∧ u.crown.readys = [] ∧ u.crown.leading = false ∧ u.crown.substIn = [] ∧
        u.crown.expectDone = (s.crown.readys.filter fun e => e.2.refusal == 0).map Prod.fst ∧ u.crown.order = s.crown.order ∧
        u.crown.seq = s.crown.seq + 2 ∧ u = { s with crown := u.crown, link := u.link })) ∧
  (∀ (s : State) (rs : Tbl ReadyIn), (∀ r, r < s.mouldSet.ranks → thas rs r = true ∧ (tget {} rs r).flags.getLsbD 2 = false) →
    s.plan rs = some { commit := (commitOf rs).isSome, mode := 0, target := (commitOf rs).getD (lowestGen rs), substs := [] }) ∧
  (∀ s : State, ((s.startup.started = true ∨ s.crown.rankNow.toNat ≠ s.coord ∨ s.crown.readys = []) → exec .startWindowExpiry s = .next s) ∧
    (s.startup.started = false → s.crown.rankNow.toNat = s.coord → s.crown.readys ≠ [] →
      exec .startWindowExpiry s = .next (({ s with crown := { s.crown with startWindow := true } } : State).tryStart)))

/-- R371, R450, R451, R454, R455, R460, R461, R467, R493, R518, R525: substitutions are kept until their GO; GO sets the epoch, settles the
voted step and starts the work of its mode; a restore ends once all has come and is rebuilt; the last DONE opens the job, and OPEN
opens it on every other rank; STALL stops a restart. -/
def Obligations.RestartSteps : Prop :=
  (∀ m b (s u : State), takenNow s m (.subst b) 0 u → ∃ t, exec (.subst m b) s = .next (answered s m t) ∧
    (¬ mayTakeGo u m.src → t = u) ∧ (mayTakeGo u m.src → t = { u with crown := { u.crown with
      substIn := u.crown.substIn ++ [(b.lost.toNat, b.spare.toNat, b.source.toNat)] } })) ∧
  (∀ m b (s u : State), takenNow s m (.go b) 0 u → ∃ t, exec (.go m b) s = .next (answered s m t) ∧
    (¬ mayTakeGo u m.src → if u.crown.deferring = true then (u.tracing = false → abortBegun u t true) else t = u) ∧
    (mayTakeGo u m.src → ∃ v w : State,
      v.crown = { u.crown with epoch := m.epoch, attempt := b.attempt.toNat, mode := b.mode.toNat, target := b.gen.toNat
                               attempts := if m.epoch = 0 then u.crown.attempts else u.crown.attempts + 1, rstate := .restarting
                               decided := none, votes := [], openStep := none, dross := v.crown.dross, rankNow := v.crown.rankNow } ∧
      (∀ c, tget 0 v.crown.dross c = if c = 0x1D ∧ m.epoch ≠ 0 then min 0xFFFF (tget 0 u.crown.dross c + 1) else tget 0 u.crown.dross c) ∧
      v.startup = { u.startup with started := true } ∧ (∀ h, v.hub h = { u.hub h with chans := (v.hub h).chans }) ∧
      (u.crown.substIn = [] → v.crown.rankNow = u.crown.rankNow ∧ v = { u with crown := v.crown, startup := v.startup }) ∧
      (∀ o, v.crown.held = some o → b.commit = true → o.init = false → ¬ (v.mouldSet.step.ckptEvery ≠ 0 ∧
        o.step % v.mouldSet.step.ckptEvery = 0 ∧ v.crown.rankNow.toNat < v.mouldSet.ranks) →
        ∃ z, stepCommitted v z o (v.crown.voted.getD false) ∧ w = z.boundary o.step false) ∧
      ((v.crown.held = none ∨ b.commit = false) → (∀ h, provDropped (v.hub h).tags (w.hub h).tags ∧ w.hub h = { v.hub h with tags := (w.hub h).tags }) ∧
        (∀ p, provDropped (v.tile p).risers (w.tile p).risers ∧ w.tile p = { v.tile p with risers := (w.tile p).risers }) ∧
        w = { v with hubs := w.hubs, tiles := w.tiles, crown := { v.crown with held := none, voted := none, commitHeld := false } }) ∧
      t = ((w.reachOrder 6).order7).resumeRx)) ∧
  (∀ s : State, let u := s.reachOrder 7
    (s.mouldSet.ranks ≤ s.crown.rankNow.toNat → s.order7 = u.sendDone) ∧
    (s.crown.rankNow.toNat < s.mouldSet.ranks →
      (s.initDue = true → s.order7 = u.openInit) ∧
      (s.initDue = false → s.crown.importDue = true → s.order7 = u.startRebuild) ∧
      (s.initDue = false → s.crown.importDue = false → s.crown.mode = 0 → s.order7 = u.order8) ∧
      (s.initDue = false → s.crown.importDue = false → s.crown.mode = 1 → (∀ x ∈ s.crown.substIn, x.2.2 ≠ s.crown.rankNow.toNat) →
        ((∀ x ∈ s.crown.substIn, x.1 ≠ s.crown.rankNow.toNat) → s.order7 = u.order8) ∧
        ((∃ x ∈ s.crown.substIn, x.1 = s.crown.rankNow.toNat) → ∀ h, h < 8 →
          (s.order7.hub h) = { u.hub h with restoring := true, tags := [], covered := [] })))) ∧
  (∀ s : State, (s.crown.epoch = 0 → s.order8 = s.order9) ∧
    (s.crown.epoch ≠ 0 → s.crown.relabel = false → s.order8 = (s.reachOrder 8).order9) ∧
    (s.crown.epoch ≠ 0 → s.crown.relabel = true → s.order8.crown.order = 8 ∧ ∀ h, h < 8 → (s.order8.hub h) = { s.hub h with relabel := true }) ∧
    ((s.crown.epoch = 0 ∨ s.mouldSet.ranks ≤ s.crown.rankNow.toNat) → s.order9 = s.sendDone) ∧
    (s.crown.epoch ≠ 0 → s.crown.rankNow.toNat < s.mouldSet.ranks → s.mouldSet.step.replayOnRestart = false →
      s.order9 = (s.reachOrder 9).sendDone) ∧
    (s.crown.epoch ≠ 0 → s.crown.rankNow.toNat < s.mouldSet.ranks → s.mouldSet.step.replayOnRestart = true →
      (s.crown.priorIntact = true → s.crown.mode ≠ 0 → s.order9 = (s.reachOrder 9).sendDone) ∧
      (s.crown.priorIntact = false → s.order9 = s.reachOrder 9))) ∧
  (∀ s : State, let u := s.reachOrder 10
    (s.crown.leader = s.crown.rankNow → doneTaken u s.sendDone s.crown.rankNow.toNat) ∧
    (s.crown.leader ≠ s.crown.rankNow →
      s.sendDone = u.sendPrio s.crown.leader.toNat (s.crown.target + 1) (.done (BitVec.ofNat 64 s.crown.target)))) ∧
  (∀ s : State, let restoring := s.hubs.any fun e => e.2.restoring
    let may := s.crown.rstate = .restarting ∧ s.crown.order = 7 ∧ s.crown.openStep = none ∧
      (restoring = true → s.crown.mode = 1 ∧ s.restoredAll = true) ∧ (s.crown.rebuild = true → ∀ h, h < 8 → s.hubDone h = true) ∧
      ∀ e ∈ s.hubs, ∀ p ∈ e.2.ports, p.2.tx = []
    (¬ may → exec .restoreDone s = .next s) ∧
    (may → ∃ u : State, exec .restoreDone s = .next u.order8 ∧
      let fresh := restoring || s.crown.rebuild
      u.crown = { s.crown with gen := if restoring then s.crown.target else s.crown.gen, rebuild := false, importDue := false
                               priorIntact := s.crown.priorIntact && !fresh, relabel := s.crown.relabel && !fresh } ∧
      (∀ h, (u.hub h).restoring = false ∧ (u.hub h).lists = [] ∧ (u.hub h).upds = [] ∧ (u.hub h).slots = (s.hub h).slots ∧
        (u.hub h).relabel = ((s.hub h).relabel && !fresh)) ∧
      (fresh = true → ∀ h, h < 8 → bankTagged s u h u.crown.gen) ∧ (fresh = false → ∀ h, (u.hub h).tags = (s.hub h).tags) ∧
      u = { s with crown := u.crown, hubs := u.hubs })) ∧
  (∀ m gen (s u : State), takenNow s m (.done gen) 0 u → ∃ t, exec (.done m gen) s = .next (answered s m t) ∧
    (m.epoch ≠ u.crown.epoch → t = u) ∧ (m.epoch = u.crown.epoch → doneTaken u t m.src.toNat)) ∧
  (∀ m (s u : State), takenNow s m .openJob 0 u → ∃ t, exec (.openJob m) s = .next (answered s m t) ∧
    let may := m.src = u.crown.leader ∧ m.epoch = u.crown.epoch ∧ u.crown.rstate = .restarting ∧ u.crown.order = 10
    (¬ may → t = u) ∧ (may → u.crown.reshard = none → jobOpened u t)) ∧
  (∀ m a (s u : State), takenNow s m (.stall a) 0 u → ∃ t, exec (.stall m a) s = .next (answered s m t) ∧
    (u.crown.rstate ≠ .aborting → u.crown.rstate ≠ .restarting → t = u) ∧
    (u.crown.rstate = .aborting ∨ u.crown.rstate = .restarting → t.crown.rstate = .stalled ∧ t.crown.order = 0 ∧ t.crown.attempt = a.toNat ∧
      t.crown.readys = [] ∧ t.crown.leading = false ∧ t.crown.triedRanks = [] ∧ t.crown.gen = u.crown.gen ∧ t.crown.epoch = u.crown.epoch ∧
      t.crown.seq = u.crown.seq + 1 ∧ t = { u with crown := t.crown, link := t.link }))

/-- R381 to R383, R388, R405, R415, R452, R492, R553: link-up locks its lanes, checks the far end against the wiring table, measures the flight
64 times and comes up; one that does not is timed out; a port that loses a lane goes down; a far end that sleeps takes its port down
without a fault, and link-up toward it begins again by its timer. -/
def Obligations.PortLinkUp : Prop :=
  (∀ (a : PortAt) lanes skew (s : State), let h := a.hub.val
    let m := a.port.val
    let x := s.port h m
    (¬ trains s h m → exec (.laneLock a lanes skew) s = .next s) ∧
    (trains s h m → ∃ t, exec (.laneLock a lanes skew) s = .next t ∧ onlyPort s t h m ∧
      let good := decide (lanes = 0xFF ∧ skew ≤ 1000)
      let id : IdentBody := { rank := s.startup.rank, port := BitVec.ofNat 4 (2 * h + m), version := 1, features := Config.portFeatures }
      let y := { x with lanes := lanes, skew := BitVec.ofNat 8 (min 255 (skew / 4)), order := if good then 2 else 0 }
      t.port h m = if good then withCtrl y (.ident id) 0 else y)) ∧
  (∀ (a : PortAt) b (s : State), let h := a.hub.val
    let m := a.port.val
    let x := s.port h m
    ((¬ trains s h m ∨ x.order < 2) → exec (.ident a b) s = .next s) ∧
    (trains s h m → 2 ≤ x.order → ∃ t, exec (.ident a b) s = .next t ∧ onlyPort s t h m ∧
      let right := decide (b.rank.toNat = (s.wire h m).2.1 ∧ b.port.toNat = (s.wire h m).2.2)
      let y := { x with farRank := b.rank, farPort := b.port, features := b.features &&& Config.portFeatures
                        version := if b.version = 0 then 0 else 1, order := if right then 4 else 3
                        samples := if right then [] else x.samples }
      t.port h m = if right then withMeasures y else y)) ∧
  (∀ (a : PortAt) turn (s : State), let h := a.hub.val
    let m := a.port.val
    let x := s.port h m
    (((¬ trains s h m ∧ x.up = false) ∨ x.order < 2) → exec (.measure a (.request turn)) s = .next s) ∧
    ((trains s h m ∨ x.up = true) → 2 ≤ x.order → ∃ t, exec (.measure a (.request turn)) s = .next t ∧ onlyPort s t h m ∧
      t.port h m = withCtrl x (.measureEcho turn) 0)) ∧
  (∀ (a : PortAt) (trip turn : Nat) (s : State), let h := a.hub.val
    let m := a.port.val
    let x := s.port h m
    let l := x.samples ++ [(trip : Int) - turn - Config.phyLatency h m]
    ((¬ trains s h m ∨ x.order ≠ 4) → exec (.measure a (.echo trip turn)) s = .next s) ∧
    (trains s h m → x.order = 4 → ∃ (u t : State), exec (.measure a (.echo trip turn)) s = .next t ∧ onlyPort s u h m ∧
      (l.length < 64 → t = u ∧ t.port h m = { x with samples := l }) ∧
      (l.length = 64 → t = u.pumpPort h m ∧ let y := u.port h m
        y.up = true ∧ y.measured = true ∧ y.order = 6 ∧ y.farAsleep = false ∧ y.samples = l ∧
        (x.prio.held.length + x.waiting.length ≤ 64 → y.prioOut = x.prioOut ++ x.waiting ∧ y.waiting = []) ∧
        ∃ z : List Int, z.Perm l ∧ z.Pairwise (· ≤ ·) ∧ y.flight = ((lget 0 z 31 + lget 0 z 32) / 4).toNat))) ∧
  (∀ (a : PortAt) (s : State), let h := a.hub.val
    let m := a.port.val
    let x := s.port h m
    let late := trains s h m ∧ s.power.waking = false ∧ x.farAsleep = false ∧ x.order < 4
    (¬ late → exec (.linkupTimeout a) s = .next s) ∧
    (late → ∃ u t : State, exec (.linkupTimeout a) s = .next t ∧ onlyPort s u h m ∧ u.port h m = { x with timedOut := true } ∧
      t = { u with startup := { s.startup with refusal :=
        if 10 ∈ s.startup.done ∨ s.startup.refusal ≠ 0 then s.startup.refusal else 0x0E } })) ∧
  (∀ (a : PortAt) (lane : Fin 8) all (s : State), let h := a.hub.val
    let m := a.port.val
    let x := s.port h m
    ∃ u t : State, exec (.laneLoss a lane all) s = .next t ∧ onlyPort s u h m ∧
      u.port h m = { x with lanes := if all then 0 else x.lanes &&& ~~~(BitVec.ofNat 8 (2 ^ lane.val)), order := 0, up := false
                            failed := x.failed || x.up } ∧
      let note : Report := { die := 48 + h, code := 0x06, body :=
        (body [(64, s.stepNo), (3, h), (1, m), (2, if all then 1 else 2), (1, 0), (24, 0)]) }
      t = { u with crown := { s.crown with
        reports := if x.up = true ∧ s.crown.rstate = .running then s.crown.reports ++ [note] else s.crown.reports } }) ∧
  (∀ (a : PortAt) rank port epoch (s : State), let h := a.hub.val
    let m := a.port.val
    let x := s.port h m
    (x.up = false → exec (.sleep a rank port epoch) s = .next s) ∧
    (x.up = true → ∃ t, exec (.sleep a rank port epoch) s = .next t ∧ onlyPort s t h m ∧
      let idle := sentFlit x 0 0 0 []
      let more := sentFlit { x with prioAckDue := false } 0 0 0 []
      t.port h m = { x with up := false, farAsleep := true, order := 0, rx := [], prioEarly := [], prioAckDue := false
                            line := x.line ++ (List.range 8).map fun l => (l, if l = 0 then idle else more) })) ∧
  (∀ (a : PortAt) (s : State), let h := a.hub.val
    let m := a.port.val
    let x := s.port h m
    let may := x.farAsleep = true ∧ x.up = false ∧ s.hubsOn = true
    (¬ may → exec (.sleepRetryTimer a) s = .next s) ∧
    (may → ∃ t, exec (.sleepRetryTimer a) s = .next t ∧ onlyPort s t h m ∧ t.port h m =
      { failed := x.failed, line := x.line, ctrl := x.ctrl, prioOut := x.prioOut, waiting := x.waiting
        tx := x.tx.filter (fun t => t.sent == 0), nextId := x.nextId, farAsleep := true }))

/-- R384 to R387, R389 to R392, R394, R395, R400: a port takes each data flit once and in order, acknowledges, holds what comes early and asks
for a replay of what comes bad; a replay sends the held flits again, and the sixteenth without an advance fails the link. -/
def Obligations.FlitDelivery : Prop :=
  (∀ f : Flit, let ok := ∀ c ∈ f.fec, c.1 ≤ 15
    (flitCheck f = .bad ↔ ¬ ok ∨ (f.crc ≠ flitCrc f ∧ f.crc ≠ ~~~ flitCrc f)) ∧
    (flitCheck f = .stomped ↔ ok ∧ f.crc = ~~~ flitCrc f) ∧
    (flitCheck f = .good ↔ ok ∧ f.crc = flitCrc f ∧ f.type.toNat < 4)) ∧
  (∀ n (p : Port), let y := Port.idle n p
    (p.up = false → y = p) ∧ ∃ l : List (Nat × Flit), y.line = p.line ++ l ∧ y = { p with line := y.line, prioAckDue := y.prioAckDue } ∧
      (∀ e ∈ l, e.2.type = 0 ∧ e.2.body = [] ∧ e.2.crc = flitCrc e.2) ∧
      (p.up = true → ∀ k, k < 8 → ∃ e ∈ y.line.drop n, e.1 = k) ∧ ∀ e ∈ l, ∀ k ∈ p.line.drop n, k.1 ≠ e.1) ∧
  (∀ (a : PortAt) lane f (s : State), (s.port a.hub a.port).up = false →
    exec (.dataFlit a lane f) s = .next s ∧ exec (.idle a f) s = .next s) ∧
  (∀ (a : PortAt) lane f (s : State), let h := a.hub.val
    let m := a.port.val
    let x := s.port h m
    let bad := (flitCheck f = .bad ∨ flitCheck f = .reserved)
    x.up = true → (∀ r ∈ x.rx, r.bound = .none ∨ r.bound = .here ∨ r.bound = .dropped) → flitCheck f ≠ .good →
    ∃ t, exec (.dataFlit a lane f) s = .next t ∧ (∀ g, g ≠ h → t.hub g = s.hub g) ∧ t = { s with hubs := t.hubs } ∧
      t.hub h = { s.hub h with dross := (t.hub h).dross, ports := (t.hub h).ports } ∧ (∀ q, q ≠ m → t.port h q = s.port h q) ∧
      (fecFixed f = 0 ∨ tget 0 (t.hub h).dross 0x10 = min 0xFFFFFFFF (tget 0 (s.hub h).dross 0x10 + fecFixed f)) ∧
      (fecLost f = 0 ∨ tget 0 (t.hub h).dross 0x11 = min 0xFFFF (tget 0 (s.hub h).dross 0x11 + fecLost f)) ∧
      tget 0 (t.hub h).dross 0x12 = (if bad then min 0xFFFF (tget 0 (s.hub h).dross 0x12 + 1) else tget 0 (s.hub h).dross 0x12) ∧
      t.port h m = if flitCheck f ≠ .bad then x else Port.idle x.line.length
        (if f.type = 1 then withReplay x false else if f.type = 2 then withReplay x true else x)) ∧
  (∀ (a : PortAt) lane f (s : State), let h := a.hub.val
    let m := a.port.val
    let u := (s.countFec h f).updPort h m fun p => p.takeAck f.ackc f.ack
    let y := u.port h m
    let after := fun (w : State) => (.next (w.linkAfter h m (s.port h m).line.length) : Out)
    (s.port h m).up = true → flitCheck f = .good →
    (f.type ≠ 1 → f.type ≠ 2 → exec (.dataFlit a lane f) s = after u) ∧
    (f.type = 2 → exec (.dataFlit a lane f) s = after (u.prioFlit h m f)) ∧
    (f.type = 1 → f.seq = y.rxData.expected → exec (.dataFlit a lane f) s = after
      (((u.updPort h m fun p => { p with rxData := { p.rxData with expected := f.seq + 1, discard := false } }).takeFlit h m lane f).takeEarly
        h m 64)) ∧
    (f.type = 1 → seqLt f.seq y.rxData.expected = true → exec (.dataFlit a lane f) s = after u) ∧
    (f.type = 1 → seqLt y.rxData.expected f.seq = true → y.rxData.discard = false → earlyFlits y < 64 →
      (∀ e ∈ y.rxData.early, e.2.seq ≠ f.seq) → exec (.dataFlit a lane f) s = after
      (u.updPort h m fun p => { p with rxData := { p.rxData with early := p.rxData.early ++ [(lane.val, f)] } })) ∧
    exec (.idle a f) s = after u) ∧
  (∀ (p : Port) q, let y := p.takeAck false q
    (seqLt p.data.acked q = false ∨ seqLt p.data.next q = true → y = p) ∧
    (seqLt p.data.acked q = true → seqLt p.data.next q = false → y.data.acked = q ∧ y.data.replays = 0 ∧ y.data.next = p.data.next ∧
      ∀ x ∈ y.data.held, seqLt x.flit.seq q = true → x.acked = true)) ∧
  (∀ (p : Port) q, let y := p.takeAck true q
    (seqLt p.prio.acked q = false ∨ seqLt p.prio.next q = true → y = p) ∧
    (seqLt p.prio.acked q = true → seqLt p.prio.next q = false → y = { p with prio := { p.prio with
      acked := q, replays := 0, held := p.prio.held.filter fun x => !seqLt x.flit.seq q } })) ∧
  (∀ (p : Port) m b hub, let y := p.takeAck m.ackc m.ack
    let early := y.prioEarly.any fun e => e.1.seq == m.seq
    m.newFlit = true →
    (m.seq = y.rxPrio.expected → p.prioSeq m b hub = ({ y with
      rxPrio := { y.rxPrio with expected := y.rxPrio.expected + 1, discard := false }, prioAckDue := true, prioOpen := some m.seq
      prioEarly := y.prioEarly.filter fun e => e.1.seq != m.seq || !e.1.newFlit }, true)) ∧
    (m.seq ≠ y.rxPrio.expected → (seqLt m.seq y.rxPrio.expected = true ∨ y.rxPrio.discard = true ∨ 64 ≤ earlyFlits y ∨ early = true) →
      p.prioSeq m b hub = ({ y with prioOpen := none }, false)) ∧
    (m.seq ≠ y.rxPrio.expected → seqLt m.seq y.rxPrio.expected = false → y.rxPrio.discard = false → earlyFlits y < 64 → early = false →
      p.prioSeq m b hub = ({ y with prioOpen := none, prioEarly := y.prioEarly ++ [(m, b, hub)] }, false))) ∧
  (∀ (s : State) h m lane f r, let x := s.port h m
    x.rx.find? (fun r => r.id == f.stream && !r.complete) = some r → r.refusing = none →
    (r.bound = .dropped → ∃ t, s.takeFlit h m lane f = t ∧ onlyPort s t h m ∧ (t.port h m).rxData = x.rxData) ∧
    (r.bound = .here → (StreamHead.decode r.head).kind ≠ 1 → (x.rx.filter fun z => z.id == r.id).length = 1 →
      let t := s.takeFlit h m lane f
      onlyPort s t h m ∧ t.port h m = { x with rx := (t.port h m).rx } ∧
      { r with held := r.held ++ [f.body], seen := r.seen + f.body.length } ∈ (t.port h m).rx) ∧
    (r.bound = .here → (StreamHead.decode r.head).kind = 1 → let b := r.bytes ++ f.body
      let was := (streamParts r.bytes).1.length
      (streamParts b).2 = none → s.takeFlit h m lane f =
        (s.bankPiece (StreamHead.decode r.head) was ((streamParts b).1.drop was)).updPort h m fun p =>
          p.deliverRx { r with bytes := b, seen := r.seen + f.body.length, complete := false } 1)) ∧
  (∀ (p : Port) (r : RxStream) n, let d := r.delivered + n
    p.deliverRx r n = if r.reported < d ∧ max 1 ((StreamHead.decode r.head).win / 4) ≤ d - r.reported then
      withCtrl (p.setRx { r with delivered := d, reported := d }) (.credit r.id d) 0 else p.setRx { r with delivered := d }) ∧
  (∀ (a : PortAt) prio q (s : State), let h := a.hub.val
    let m := a.port.val
    let x := s.port h m
    let c := if prio then x.prio else x.data
    let n := replaysOf c q
    let again := c.held.filter fun y => !seqLt y.flit.seq q
    let y : Port := if prio then { x with prio := { x.prio with replays := n, lastS := q } } else { x with data := { x.data with replays := n, lastS := q } }
    (x.up = false → exec (.linkReplay a prio q) s = .next s) ∧
    (x.up = true → ∃ t, exec (.linkReplay a prio q) s = .next t ∧
      t = (s.replayLink h m prio q).updPort h m (Port.idle x.line.length) ∧
      (16 ≤ n → tget 0 (t.hub h).dross 0x13 = min 0xFFFF (tget 0 (s.hub h).dross 0x13 + 1) ∧
        t.port h m = { y with up := false, failed := true, order := 0 } ∧
        (if s.crown.rstate = .aborting ∨ s.crown.rstate = .restarting then t.crown = s.crown else ∃ r, t.crown.reports = s.crown.reports ++ [r] ∧
          r.code = 0x06 ∧ r.die = 48 + h ∧ r.body = body [(64, s.stepNo), (3, h), (1, m), (2, 0), (1, b2n prio), (24, q.toNat)])) ∧
      (n < 16 → prio = true → tget 0 (t.hub h).dross 0x13 = min 0xFFFF (tget 0 (s.hub h).dross 0x13 + 1) ∧
        ∃ l k, (t.port h m).line = x.line ++ l ++ k ∧ t.crown = s.crown ∧ t.mem = s.mem ∧
        l.map (fun e => (e.1, e.2.seq, e.2.body)) = again.map (fun z => (z.lane, z.flit.seq, z.flit.body)) ∧
        (∀ e ∈ l, e.2.crc = flitCrc e.2 ∧ e.2.type = 2) ∧ (∀ e ∈ k, e.2.type = 0) ∧ (t.port h m).prio = y.prio) ∧
      (n < 16 → prio = false → quiet s → (∀ z ∈ again, canRead s (s.flitAt h m z.slot) z.flit.body.length) →
        ∃ l k, (t.port h m).line = x.line ++ l ++ k ∧ t.crown = s.crown ∧ t.mem = s.mem ∧
        l.map (fun e => (e.1, e.2.seq, e.2.stream, e.2.body)) = again.map (fun z => (z.lane, z.flit.seq, z.flit.stream,
          (List.range z.flit.body.length).map fun j => memByteAt s (s.flitAt h m z.slot + j))) ∧
        (∀ e ∈ l, e.2.crc = flitCrc e.2 ∧ e.2.type = 1) ∧ (∀ e ∈ k, e.2.type = 0) ∧ (t.port h m).data = y.data))) ∧
  (∀ (a : PortAt) prio (s : State), let h := a.hub.val
    let m := a.port.val
    let x := s.port h m
    (x.up = false → exec (.replayGapTimeout a prio) s = .next s ∧ exec (.linkAckTimeout a prio) s = .next s) ∧
    (x.up = true → (if prio then x.prioEarly = [] else x.rxData.early = []) → exec (.replayGapTimeout a prio) s = .next s) ∧
    (x.up = true → (if prio then x.prioEarly ≠ [] else x.rxData.early ≠ []) → ∃ t, exec (.replayGapTimeout a prio) s = .next t ∧
      onlyPort s t h m ∧ t.port h m = withReplay x prio) ∧
    (x.up = true → let held := if prio then x.prio.held else x.data.held.filter fun y => !y.acked
      (held = [] → exec (.linkAckTimeout a prio) s = .next s) ∧
      ∀ y rest, held = y :: rest → exec (.linkAckTimeout a prio) s = .next (s.replayLink h m prio y.flit.seq)))

/-- R389, R392, R395 to R399, R402, R413, R553: what a far end reports of a stream moves its window; a refused stream waits and goes on from the
refused flit; a port sends only within window and buffer; a message counts, is relayed or forwarded, and is taken only by whom it is
for and in its epoch. -/
def Obligations.StreamControl : Prop :=
  (∀ (a : PortAt) stream (n : Nat) (s : State), let h := a.hub.val
    let m := a.port.val
    ((s.port h m).up = false → exec (.credit a stream n) s = .next s ∧ exec (.creditReportTimer a stream) s = .next s ∧
      exec (.refuse a stream n) s = .next s ∧ exec (.linkResume a stream n) s = .next s) ∧
    ((s.port h m).up = true →
      exec (.credit a stream n) s = .next ((s.updPort h m fun p => (streamChanged p stream fun t =>
        { t with delivered := max t.delivered (min t.sent n) }).release).linkAfter h m (s.port h m).line.length) ∧
      exec (.refuse a stream n) s = .next ((s.updPort h m fun p => (streamChanged p stream fun t =>
        { t with stopped := true, sent := min t.sent n, delivered := max t.delivered (min t.sent n) }).release).linkAfter h m
          (s.port h m).line.length) ∧
      exec (.linkResume a stream n) s = .next (((s.rereadTx h m stream).updPort h m fun p => streamChanged p stream fun t =>
        { t with stopped := false, sent := min t.bodies.length n }).linkAfter h m (s.port h m).line.length))) ∧
  (∀ (s : State) h m id, (∀ x ∈ (s.port h m).data.held, ¬ (x.acked = true ∧ x.flit.stream = id)) → s.rereadTx h m id = s) ∧
  (∀ (a : PortAt) stream (s : State) r, let h := a.hub.val
    let m := a.port.val
    let x := s.port h m
    x.up = true → x.rx.find? (fun r => r.id == stream) = some r → (∀ z ∈ x.rx, z.id = stream → z = r) →
    ∃ t, exec (.creditReportTimer a stream) s = .next t ∧ onlyPort s t h m ∧
      let y := { x with rx := if r.complete then x.rx.filter (fun z => z.id != stream)
                              else x.rx.map fun z => if z.id = stream then { r with reported := r.delivered } else z }
      t.port h m = if r.reported < r.delivered then withCtrl y (.credit stream r.delivered) 0 else y) ∧
  (∀ (p : Port), let y := p.release
    (∀ x, x ∈ y.data.held ↔ x ∈ p.data.held ∧ ¬ (x.acked = true ∧ ∀ t, (p.tx.find? fun t => t.id = x.flit.stream) = some t →
      x.idx < t.delivered ∨ ∃ y ∈ p.data.held, y.flit.stream = t.id ∧ y.idx = x.idx ∧ seqLt x.flit.seq y.flit.seq = true)) ∧
    (∀ t, t ∈ y.tx ↔ t ∈ p.tx ∧ ¬ (t.closed = true ∧ t.bodies.length ≤ t.delivered)) ∧
    y = { p with tx := y.tx, data := { p.data with held := y.data.held } }) ∧
  (∀ size k (p : Port), let y := Port.pump size k p
    ∃ l o : List TxFlit, y.data.held = o ++ l ∧ o.Sublist p.data.held ∧
      (∀ x ∈ p.data.held, x ∉ o → x.acked = true ∧ ∃ z ∈ l, z.flit.stream = x.flit.stream ∧ z.idx = x.idx) ∧ y.line = p.line ++ l.map (fun x => (x.lane, x.flit)) ∧
      y.data.next = p.data.next + BitVec.ofNat 24 l.length ∧
      (∀ x ∈ l.zipIdx, x.1.flit.seq = p.data.next + BitVec.ofNat 24 x.2 ∧ x.1.flit.type = 1 ∧ x.1.flit.crc = flitCrc x.1.flit ∧
        x.1.acked = false) ∧
      (∀ x ∈ l, p.stomp.map Prod.fst ≠ some x.lane ∧ ∃ t ∈ p.tx, t.id = x.flit.stream ∧ x.lane = lget 0 t.lanes x.idx ∧
        x.flit.body = lget [] t.bodies x.idx) ∧
      (l ≠ [] → p.up = true) ∧ (p.data.held.length * 4096 ≤ size → y.data.held.length * 4096 ≤ size) ∧ y.tx.length = p.tx.length ∧ y.rx = p.rx ∧ y.rxData = p.rxData ∧
      ∀ (i : Nat) (t z : TxStream), p.tx[i]? = some t → y.tx[i]? = some z → z = { t with sent := z.sent } ∧ t.sent ≤ z.sent ∧
        (t.sent < z.sent → t.stopped = false ∨ ∃ u ∈ p.tx, u.id = t.id ∧ u.stopped = false)) ∧
  (∀ m b hub (s : State), (s.port (m.port.val / 2) (m.port.val % 2)).up = false → s.prioIn m b hub = (s, false)) ∧
  (∀ m b hub (s : State), (s.port (m.port.val / 2) (m.port.val % 2)).up = true →
    let r := (s.port (m.port.val / 2) (m.port.val % 2)).prioSeq m b hub
    let u := s.updPort (m.port.val / 2) (m.port.val % 2) fun _ => r.1
    let hop : Bool := match b with | .timeSync _ => true | .timeReply _ _ => true | _ => false
    let ages : Bool := match b with | .vote _ => true | .outcome _ => true | .digest _ => true | .phase _ => true | .phaseDone _ => true | _ => false
    let aged := ages && decide (m.epoch.toNat < s.crown.epoch.toNat)
    let stale := match b with | .notice n => n.epoch.toNat < s.crown.epoch.toNat | _ => False
    (r.2 = false ∨ stale → s.prioIn m b hub = (u, false)) ∧
    (r.2 = true → ¬ stale →
      ((s.prioIn m b hub).2 = true ↔ (hop = true ∨ m.bcast = true ∨ m.dst = s.crown.rankNow) ∧ aged = false) ∧
      (hop = true → (s.prioIn m b hub).1 = u) ∧ (hop = false → m.bcast = false → m.dst = s.crown.rankNow → (s.prioIn m b hub).1 = u) ∧
      (hop = false → m.bcast = false → m.dst ≠ s.crown.rankNow → (s.prioIn m b hub).1 = match u.routePort m.dst.toNat with
        | some (h, p) => u.updPort h p fun x => x.sendPrio m b
        | none => u.streamFault 0 6 0 m.dst.toNat 0xFFFF) ∧
      (hop = false → m.bcast = true → (s.prioIn m b hub).1 = (s.treePorts.filter fun q => q != (m.port.val / 2, m.port.val % 2)).foldl
        (fun s q => s.updPort q.1 q.2 fun x => x.sendPrio m b) u))) ∧
  (∀ (p : Port) m b, let y := p.sendPrio m b
    let flit := sentFlit p 2 p.prio.next 0 (prioBytes m b)
    let lane := p.prio.next.toNat % 8
    (p.up = true → p.waiting = [] → p.prio.held.length < 64 → y = { p with
      prioOut := p.prioOut ++ [(m, b)], prioAckDue := false, line := p.line ++ [(lane, flit)]
      prio := { p.prio with next := p.prio.next + 1, held := p.prio.held ++ [{ lane := lane, flit := flit }] } }) ∧
    (p.up = true → (p.waiting ≠ [] ∨ 64 ≤ p.prio.held.length) → y = { p with waiting := p.waiting ++ [(m, b)] }) ∧
    (p.up = false → y = if p.farAsleep then { p with waiting := p.waiting ++ [(m, b)] } else p)) ∧
  (∀ m b, (prioBytes m b).length = 64 ∧ leNat ((prioBytes m b).take 8) = (prioFields b).1 * 2 ^ 56 + b2n m.bcast * 2 ^ 55 +
    m.src.toNat * 2 ^ 44 + m.dst.toNat * 2 ^ 33 + m.epoch.toNat ∧ leNat (((prioBytes m b).drop 8).take 8) = m.step.toNat)

/-- R412, R413, R527, R530, R531, R535: a rank asks the port it steers from for time, a port that serves answers, and the four stamps give an
offset; offsets set, steer and lock the counter; a lost source leaves it at the mean of its last corrections. -/
def Obligations.ClockDiscipline : Prop :=
  (∀ s : State, let q := s.loaded.route.timeSrc
    let may := s.crownOn = true ∧ s.loaded.loaded = true ∧ q < 16 ∧ (s.port (q / 2) (q % 2)).up = true
    (¬ may → exec .timeSyncTimer s = .next s) ∧
    (may → ∃ u t : State, exec .timeSyncTimer s = .next t ∧ onlyPort s u (q / 2) (q % 2) ∧
      u.port (q / 2) (q % 2) = (s.port (q / 2) (q % 2)).sendPrio (s.prioHead 0 false 0) (.timeSync s.time.counter) ∧
      t = { u with time := { s.time with lastT1 := some s.time.counter } })) ∧
  (∀ m t1 (s u : State), let q := m.port.val
    takenNow s m (.timeSync t1) 0 u → ∃ t, exec (.timeSync m t1) s = .next (answered s m t) ∧
      (bit u.loaded.route.timeServe q = false → t = u) ∧
      (bit u.loaded.route.timeServe q = true → onlyPort u t (q / 2) (q % 2) ∧ t.port (q / 2) (q % 2) =
        (u.port (q / 2) (q % 2)).sendPrio (u.prioHead 0 false 0) (.timeReply u.time.counter u.time.counter))) ∧
  (∀ m t2 t3 (s u : State), takenNow s m (.timeReply t2 t3) 0 u → ∃ t, exec (.timeReply m t2 t3) s = .next (answered s m t) ∧
    (m.port.val ≠ u.loaded.route.timeSrc ∨ u.time.lastT1 = none → t = u) ∧
    (∀ t1, m.port.val = u.loaded.route.timeSrc → u.time.lastT1 = some t1 → t = { u with time := t.time } ∧
      let delay := (((u.time.counter : Int) - t1) - ((t3 : Int) - t2)) / 2
      offsetTaken { u.time with lastT1 := none } t.time
        (((t2 : Int) - t1) - delay - 65536 * lget 0 u.loaded.route.asym m.port.val) (decide (u.crown.job = .active)))) ∧
  (∀ s : State, let may := s.crownOn = true ∧ (s.time.state = .locked ∨ s.time.state = .acquiring)
    (¬ may → exec .timeSourceLoss s = .next s) ∧
    (may → ∃ t v, exec .timeSourceLoss s = .next t ∧ steered s.time v s.time.meanCorr ∧ t = { s with time := t.time } ∧
      t.time = { v with state := .holdover, sourceLost := true, good := 0, master := none, syncT2 := none, pair := none
                        delayT3 := none, lastT1 := none })) ∧
  (∀ (t : Time) c, (∀ e ∈ t.corrLog, e.2 = c ∧ e.1 ≤ t.ticks) → t.corrLog.Pairwise (fun a b => b.1 ≤ a.1) → t.corr = c → t.meanCorr = c) ∧
  (∀ (t : Time) a b c d, b < a → a < t.ticks → t.ticks ≤ b + 6000000000 → t.corrLog = [(a, c), (b, d)] →
    t.meanCorr = (c * ((t.ticks : Int) - a) + d * ((a : Int) - b)) / ((t.ticks : Int) - b)) ∧
  (∀ t u v c, steered t u c → -327 ≤ u.corr ∧ u.corr ≤ 327 ∧ (offsetTaken t v c true → v.ticks = t.ticks))

/-- R528 to R533: the time port serves only its domain and its best master; a Sync, with its Follow_Up where it is two-step, and the answer to
the own Delay_Req give an offset; 1PPS edges steer the phase unless they are too soon or too far off; the output rises at each whole
second and falls after its pulse. -/
def Obligations.TimePort : Prop :=
  (∀ m (s : State), ¬ mastered s m →
    exec (.sync m) s = .next s ∧ exec (.followUp m) s = .next s ∧ exec (.delayResp m) s = .next s) ∧
  (∀ m (s : State), let x := s.time
    let got := fun t1 t2 : Nat => { x with syncT2 := none, pair := some (t1, t2), delayReqs := x.delayReqs + 1
                                           delayT3 := some (BitVec.ofNat 16 x.delayReqs, x.counter) }
    mastered s m →
    exec (.sync m) s = .next { s with time :=
      if m.twoStep then { x with syncT2 := some (m.seqId, m.ingress) } else got m.stamp m.ingress } ∧
    ((∀ t2, x.syncT2 ≠ some (m.seqId, t2)) → exec (.followUp m) s = .next s) ∧
    (∀ t2, x.syncT2 = some (m.seqId, t2) → exec (.followUp m) s = .next { s with time := got m.stamp t2 }) ∧
    ((∀ t3, x.delayT3 ≠ some (m.seqId, t3)) → exec (.delayResp m) s = .next s) ∧
    (∀ t1 t2 t3 y, x.delayT3 = some (m.seqId, t3) → x.pair = some (t1, t2) → s.loaded.time = some y → ∃ t,
      exec (.delayResp m) s = .next t ∧ t = { s with time := t.time } ∧
      let delay := (((t2 : Int) - t1) + ((m.stamp : Int) - t3)) / 2
      offsetTaken { x with delayT3 := none, pair := none } t.time (-(((t2 : Int) - t1) - delay - 65536 * y.asym))
        (decide (s.crown.job = .active)))) ∧
  (∀ m b (s : State), (¬ portServes s m → exec (.announce m b) s = .next s) ∧
    (portServes s m →
      let x := s.time
      let taken : State := { s with time := { x with master := some (m.source, b) } }
      (x.master = none → exec (.announce m b) s = .next taken) ∧
      (∀ c, x.master = some (m.source, c) → exec (.announce m b) s = .next taken) ∧
      (∀ src c, x.master = some (src, c) → src ≠ m.source → AnnounceBody.better b c = false → exec (.announce m b) s = .next s) ∧
      (∀ src c, x.master = some (src, c) → src ≠ m.source → AnnounceBody.better b c = true → exec (.announce m b) s = .next
        { s with time := { x with master := some (m.source, b), syncT2 := none, pair := none, delayT3 := none } }))) ∧
  (∀ wide (s : State), let x := s.time
    let d := x.toSecond
    let uses := s.crownOn = true ∧ wide = true ∧ ∃ y, s.loaded.time = some y ∧ y.ppsMode = 1
    let soon := ∃ k, x.ppsLast = some k ∧ x.ticks < k + 50000000
    let astray := (x.state = .locked ∨ x.state = .holdover) ∧ (d < -65536000000 ∨ 65536000000 < d)
    (¬ uses → exec (.ppsEdge wide) s = .next s) ∧
    (uses → soon ∨ astray → ∃ t, exec (.ppsEdge wide) s = .next t ∧ t = { s with crown := { s.crown with dross := t.crown.dross } } ∧
      ∀ c, tget 0 t.crown.dross c = if c = 0x1A then min 0xFFFF (tget 0 s.crown.dross c + 1) else tget 0 s.crown.dross c) ∧
    (uses → ¬ soon → ¬ astray → ∃ t v, exec (.ppsEdge wide) s = .next t ∧ t = { s with time := t.time } ∧
      steered x v (Config.ppsServo d x.corr) ∧ t.time = { v with
        ppsLast := some x.ticks, pps := .locked, state := if x.state = .holdover ∧ x.src = 0x1E then .free else x.state })) ∧
  (∀ (t : Time), let n : Nat := 65536000000000
    let r := t.counter % n
    t.toSecond = if 2 * r < n then -(r : Int) else (n : Int) - r) ∧
  (∀ s : State, let x := s.time
    let uses := s.crownOn = true ∧ ∃ y, s.loaded.time = some y ∧ y.ppsMode = 1
    (¬ uses → exec .ppsLossTimeout s = .next s) ∧
    (uses → ∃ t v, exec .ppsLossTimeout s = .next t ∧ t = { s with time := t.time } ∧ steered { x with ppsLost := true, pps := .missing } v x.meanCorr ∧
      t.time = if x.src = 0x1E ∧ x.state = .free then { v with state := .holdover } else { x with ppsLost := true, pps := .missing })) ∧
  (∀ s : State, let x := s.time
    let now := x.counter / 2 ^ 16 / 1000000000
    let may := s.crownOn = true ∧ x.state ≠ .unset ∧ x.lastSecond < now
    (¬ may → exec .ppsOutSecond s = .next s) ∧
    (may → exec .ppsOutSecond s = .next { s with time := { x with ppsOut := true, lastSecond := now } }) ∧
    exec .ppsOutPulseEnd s = .next { s with time := { x with ppsOut := false } })

/-- R437 to R441, R539 to R542, R548 to R550: each interval the crown sets budget and ceiling and shares the budget among the dies by what they
want; a die applies the newest budget and reports; its rail moves one step at most each tick, for staleness, heat, ceiling or budget;
THERM_ALERT_N is read as it stands. -/
def Obligations.PowerBudget : Prop :=
  (∀ pinW fixedW (s : State), s.diesOn = false → exec (.budgetInterval pinW fixedW) s = .next s) ∧
  (∀ pinW fixedW (s : State), s.diesOn = true → let p := s.power
    let soft := p.soft.bind fun x => if 10 * x.2.1 ≤ x.2.2 + 1 then none else some (x.1, x.2.1, x.2.2 + 1)
    let ramp := (match soft with
      | some (p0, ms, n) => (16 * ((p0 : Int) + (5200 - (p0 : Int)) * n / (10 * ms))).toNat
      | none => 16 * 5200)
    let b := if s.rampTest then 16 * 2600 else min (min (16 * 5200) ramp) (16 * 130 * p.vin / 1000)
    let k := if s.rampTest = true ∨ s.thermLow = true then 15
      else if p.below38 then max 15 (35 - (38000 - p.vin) / 200) else 35
    let f := s.mouldSet.step.loadFloor
    let floor := min b (16 * f * p.pMean / 100)
    let fillable := ∃ x ∈ s.mouldSet.tiles, x.1.1 = s.role ∧ ∃ l ∈ x.2.pours, ∃ e ∈ l, e.head.fillerOk = true
    let n := if f = 0 ∨ p.floorOn = false ∨ ¬ fillable then 0 else if 16 * pinW < floor then min 48 (p.floorTiles + 4)
      else if 105 * floor < 1600 * pinW then p.floorTiles - 4 else p.floorTiles
    let want := fun d : Nat => let r := tget (0, false, 0) p.reports d
      max (if d < 48 then 320 else 400) (if r.2.1 then r.1 * 5 / 4 else r.1)
    let sum := ((List.range 56).map want).sum
    let told := (List.range 56).map fun d =>
      (d, p.epoch + 1, BitVec.ofNat 16 (min 0xFFFF ((b - 16 * fixedW) * want d / sum)), BitVec.ofNat 8 k, decide (d < n))
    exec (.budgetInterval pinW fixedW) s = .next { s with power := { p with
      soft := soft, pSum := (p.pSum.1 + pinW, p.pSum.2 + 1), pin := pinW, ceiling := k, floorTiles := n, epoch := p.epoch + 1
      cuffs := p.cuffs ++ told } }) ∧
  (∀ index (s : State), (s.power.cuffs[index]? = none → exec (.budget index) s = .next s) ∧
    ∀ d e b k f, s.power.cuffs[index]? = some (d, e, b, k, f) → (s.crownReach d = false → exec (.budget index) s = .next s) ∧
      (s.crownReach d = true → ∃ t, exec (.budget index) s = .next t ∧
      let c := s.cuffOf d
      let m := { c with power := if c.acc.2 = 0 then c.power else BitVec.ofNat 16 (c.acc.1 / c.acc.2), acc := (0, 0) }
      let n := if e.toNat < c.epoch.toNat then m else { m with epoch := e, budget := b, ceiling := k, floorReq := f, stale := false }
      let flags := BitVec.ofNat 3 (4 * b2n n.hot + 2 * b2n n.stale + b2n n.throttled)
      t = withCuff { s with power := { s.power with cuffs := s.power.cuffs.eraseIdx index
                                                    cuffReports := s.power.cuffReports ++ [(d, n.epoch, n.power, n.rail, n.tj, flags)] } } d n)) ∧
  (∀ index (s : State), (s.power.cuffReports[index]? = none → exec (.report index) s = .next s) ∧
    ∀ d e w r j f, s.power.cuffReports[index]? = some (d, e, w, r, j, f) → exec (.report index) s = .next (if s.crownReach d then { s with power :=
      { s.power with cuffReports := s.power.cuffReports.eraseIdx index, reports := tset s.power.reports d (w.toNat, f.getLsbD 0, j.toNat) } } else s)) ∧
  (∀ (d : RailDie) w tj (s : State), s.diesOn = false → exec (.railControlTick d w tj) s = .next s ∧ exec (.budgetStaleTimeout d) s = .next s) ∧
  (∀ (d : RailDie) w tj (s : State), s.diesOn = true → let c := s.cuffOf d
    let hot := decide (105 ≤ tj ∨ (c.hot = true ∧ 103 ≤ tj))
    let high := c.ceiling.toNat < c.rail.toNat
    let more := c.budget.toNat < w.toNat
    ∃ (u t : State) (n : Cuff), exec (.railControlTick d w tj) s = .next t ∧ u = withCuff s d n ∧
      n = { c with tj := BitVec.ofNat 8 (min 255 tj), hot := hot, acc := (c.acc.1 + w.toNat, c.acc.2 + 1), rail := n.rail, throttled := n.throttled } ∧
      (c.stale = true ∨ hot = true ∨ high ∨ more → n.rail.toNat = (if 15 < c.rail.toNat then c.rail.toNat - 1 else c.rail.toNat)) ∧
      (c.stale = false → hot = false → ¬ high → ¬ more → n.rail.toNat =
        if 100 * w.toNat < 95 * c.budget.toNat ∧ c.rail.toNat < c.ceiling.toNat ∧ c.rail.toNat < 35 then c.rail.toNat + 1 else c.rail.toNat) ∧
      (n.throttled = true ↔ c.throttled = true ∨ (more ∧ 15 < c.rail.toNat)) ∧
      (if (high ∨ more) ∧ 15 < c.rail.toNat then
        t = (if d.val < 48 then u.updTile (s.phys d) fun x => { x with dross := (t.tile (s.phys d)).dross }
          else u.updHub (d.val - 48) fun x => { x with dross := (t.hub (d.val - 48)).dross }) ∧
        ∀ k, (d.val < 48 → tget 0 (t.tile (s.phys d)).dross k =
            if k = 0x1B then min 0xFFFF (tget 0 (s.tile (s.phys d)).dross k + 1) else tget 0 (s.tile (s.phys d)).dross k) ∧
          (48 ≤ d.val → tget 0 (t.hub (d.val - 48)).dross k =
            if k = 0x1B then min 0xFFFF (tget 0 (s.hub (d.val - 48)).dross k + 1) else tget 0 (s.hub (d.val - 48)).dross k)
      else t = u) ∧
    exec (.budgetStaleTimeout d) s = .next (withCuff s d { c with stale := true })) ∧
  (∀ low (s : State), exec (.thermAlert low) s = .next { s with thermLow := low })

/-- R475, R477, R536 to R538, R542 to R546, R554, R565: thresholds act on the mean of the last eight samples; a trip quenches the device, every
die stops, and power is dropped once the hubs are quiet, and comes back when the input has recovered; PWR_OK and the charge of the
input stage bring the crown up, and losing PWR_OK loses all but flash and fuses. -/
def Obligations.PowerInput : Prop :=
  (∀ mv ma (s : State), s.crownOn = true → ∃ u v t : State, exec (.inputSample mv ma) s = .next t ∧
    let p := s.power
    let x := inputMeans p mv ma
    let n := { p with samples := x.1, vin := x.2.1, iin := x.2.2, above62 := decide (62000 < x.2.1), below40 := below p.below40 x.2.1 40000
                      below38 := below p.below38 x.2.1 38000, below36 := below p.below36 x.2.1 36000, below32 := below p.below32 x.2.1 32000
                      ride := below p.below36 x.2.1 36000 && !p.mitten }
    u = { s with power := n, startup := { s.startup with refusal := u.startup.refusal } } ∧
    u.startup.refusal = (if s.startup.service = false ∧ s.startup.refusal = 0 ∧ p.mitten = false ∧ p.quenched = false ∧
      (n.below40 = true ∨ 60000 < n.vin) ∧ 1 ∈ s.startup.done ∧ 12 ∉ s.startup.done then 0x14 else s.startup.refusal) ∧
    v = { u with crown := { u.crown with dross := v.crown.dross } } ∧
    (∀ c, tget 0 v.crown.dross c = if c = 0x1C ∧ n.below38 = true ∧ p.below38 = false then min 0xFFFF (tget 0 s.crown.dross c + 1)
      else tget 0 s.crown.dross c) ∧
    if n.below32 = true ∧ p.mitten = false then tripped v t 0 56 else if 80000 < n.vin then tripped v t 2 56 else t = v) ∧
  (∀ mv ma (s : State), s.crownOn = false → ∃ t, exec (.inputSample mv ma) s = .next t ∧
    let p := s.power
    let x := inputMeans p mv ma
    let v := x.2.1
    t = { s with power := { p with
      samples := x.1, vin := v, iin := x.2.2, above62 := decide (62000 < v), below40 := decide (v < 40000), below38 := decide (v < 38000)
      below36 := decide (v < 36000), below32 := decide (v < 32000)
      rails := if p.rails = .charging ∧ v < 36000 then .off else if p.rails = .off ∧ s.pwrOk = true ∧ 40000 ≤ v then .charging else p.rails } }) ∧
  (∀ s : State, (s.power.ride = false → exec .rideThroughExpiry s = .next s) ∧
    (s.power.ride = true → ∃ t, exec .rideThroughExpiry s = .next t ∧ tripped s t 1 56) ∧
    (s.power.above62 = false → exec .overvoltageExpiry s = .next s) ∧
    (s.power.above62 = true → ∃ t, exec .overvoltageExpiry s = .next t ∧ tripped s t 2 56)) ∧
  (∀ lug (s : State), ∃ t, exec (.lugOvercurrent lug) s = .next t ∧ tripped s t 4 56) ∧
  (∀ (die : Fin 57) (tj : Nat) (s : State), (tj < 115 → exec (.junctionTrip die tj) s = .next s) ∧
    (115 ≤ tj → ∃ t, exec (.junctionTrip die tj) s = .next t ∧ tripped s t 3 die)) ∧
  (∀ (d : RailDie) (s : State), let q := s.power.quenchCuffs
    let c := { s.cuffOf d with quenched := true }
    (((∀ x ∈ q, x.1 ≠ d.val) ∨ s.crownReach d.val = false) → exec (.quenchCuff d) s = .next s) ∧
    (∀ l x r, s.crownReach d.val = true → q = l ++ x :: r → x.1 = d.val → (∀ y ∈ l, y.1 ≠ d.val) → ∃ t, exec (.quenchCuff d) s = .next t ∧
      let u := withCuff { s with power := { s.power with quenchCuffs := l ++ r } } d c
      (d.val < 48 → onlyTile u t (s.phys d) ∧ tileCleared (u.ltile d) (t.ltile d) true ∧ (t.ltile d).cuff = c ∧
        (t.ltile d).risers = (u.ltile d).risers) ∧
      (48 ≤ d.val → onlyHub u t (d.val - 48) ∧ hubAborted (u.hub (d.val - 48)) (t.hub (d.val - 48)) s.crown.held.isSome ∧
        (t.hub (d.val - 48)).cuff = c))) ∧
  (∀ s : State, let may := s.power.quenching = true ∧ (∀ q ∈ s.power.quenchCuffs, s.crownReach q.1 = false) ∧ ∀ e ∈ s.hubs, e.2.slots = []
    (¬ may → exec .quenchHubsDone s = .next s) ∧
    (may → ∃ t, exec .quenchHubsDone s = .next t ∧
      t = { s with hubs := t.hubs, tiles := t.tiles, crown := { s.crown with signals := [] }
                   power := { s.power with quenching := false, quenched := true, reports := [], cuffs := [], cuffReports := [], quenchCuffs := [] } } ∧
      (∀ p, t.tile p = { dross := (s.tile p).dross, revision := (s.tile p).revision, selfTestOk := (s.tile p).selfTestOk }) ∧
      ∀ h, let x := s.hub h
        let y := t.hub h
        y.validHbm = x.validHbm ∧ y.validSlow = x.validSlow ∧ y.tags = x.tags ∧ y.mapout = x.mapout ∧ y.slot0 = x.slot0 ∧ y.slot1 = x.slot1 ∧
        y.chans = x.chans ∧ y.dross = x.dross ∧ y.tileMap = x.tileMap ∧ y.ports = [] ∧ y.lists = [] ∧ y.tokens = [] ∧ y.adds = [] ∧ y.slots = [] ∧
        y.cuff = {})) ∧
  (∀ s : State, let may := s.crownOn = true ∧ s.power.quenched = true ∧ s.power.below40 = false ∧ s.power.vin ≤ 60000
    (¬ may → exec .quenchRecovery s = .next s) ∧
    (may → ∃ t, exec .quenchRecovery s = .next t ∧ t.power.quenched = false ∧ t.mem = s.mem ∧ t.crown.gen = s.crown.gen ∧
      (s.crown.rstate ≠ .aborting → t = ({ s with power := { s.power with quenched := false, waking := true } } : State).trainChans) ∧
      (s.crown.rstate = .aborting → t.crown.order = 2 ∧ t.crown.seq = s.crown.seq + 1 ∧ ∀ h m, h < 8 → m < 2 →
        t.port h m = if (s.wire h m).1 then Port.retrain (s.port h m) else s.port h m))) ∧
  (∀ s : State, exec .pwrOkRise s = .next { s with pwrOk := true, power := { s.power with
    rails := if s.power.rails = .off ∧ 40000 ≤ s.power.vin then .charging else s.power.rails } }) ∧
  (∀ s : State, (s.pwrOk = false → exec .pwrOkFall s = .next s) ∧
    (s.pwrOk = true → ∃ t, exec .pwrOkFall s = .next t ∧ t.pwrOk = false ∧ t.power.rails = .off ∧ t.mem = [] ∧ t.memErr = [] ∧ t.poison = [] ∧
      t.crown = {} ∧ t.tiles = [] ∧ t.link = {} ∧ t.time = {} ∧ t.loaded = {} ∧ t.startup = { board := s.startup.board } ∧
      (∀ h, t.hub h = { repaired := (s.hub h).repaired } ∨ (t.hub h = {} ∧ (s.hub h).repaired = []) ∨ ¬ (s.hubs.map Prod.fst).Nodup) ∧
      t = { t with pending := s.pending, flash := s.flash, keySlots := s.keySlots, revoked := s.revoked, idKey := s.idKey
                   journal := s.journal, rstN := s.rstN, thermLow := s.thermLow })) ∧
  (∀ s : State, (s.power.rails ≠ .charging → exec .inputChargeDone s = .next s) ∧
    (s.power.rails = .charging → let u : State := { s with power := { s.power with rails := .up }
                                                           startup := { s.startup with done := addOnce s.startup.done 1 } }
      exec .inputChargeDone s = .next (if s.rstN then u.boot else u)))

/-- R209, R211, R231, R428, R434 to R436, R475 to R478, R480 to R488, R490, R491, R494, R499, R500, R503: reset, boot, the pattern's checks,
self-test with its spare mapping, memory training, mould load and the ready vote, each at its order and once; a check that fails
refuses start with its code. -/
def Obligations.StartUp : Prop :=
  (∀ s : State, ∃ t, exec .rstNAssert s = .next t ∧ resetBy s t ∧ t.rstN = false ∧ t.power.rails = s.power.rails ∧ t.power.vin = s.power.vin ∧
    t.startup = { board := s.startup.board, done := if s.power.rails = .up then [1] else [] }) ∧
  (∀ b (s : State), (s.rstN = true → exec (.rstNRelease b) s = .next s) ∧
    (s.rstN = false → let u : State := { s with rstN := true, startup := { s.startup with board := b } }
      exec (.rstNRelease b) s = .next (if s.power.rails = .up then u.boot else u))) ∧
  (∀ s : State, let b := s.startup.board
    let u : State := withOrders { s with
      flash0 := b.flash0, flash1 := b.flash1, powerUps := s.powerUps + 1
      idKey := match s.idKey with | some k => some k | none => some (Config.identityKey s.powerUps)
      startup := { s.startup with forced := b.forceService, service := b.forceService } } [1, 2]
    (b.forceService = true → s.boot = u) ∧
    (b.forceService = false → s.startup.refusal = 0 → s.crownOn = true → s.power.mitten = false → s.power.quenched = false →
      12 ∉ s.startup.done → s.boot = if s.power.below40 = true ∨ 60000 < s.power.vin then refusedWith u 0x14 else u.readPattern)) ∧
  (∀ s : State, (s.imageCode = 0 ↔ s.flash0 = true ∧ s.flashNat 0 4 = 0x50540059 ∧ (s.readHeader.twoFlash = true → s.flash1 = true) ∧
      s.formatOk = true ∧ s.keyOk = true ∧ s.signatureOk = true) ∧
    (s.keyOk = true ↔ ∃ d, lget none s.keySlots (s.flashNat 38 1) = some d ∧ lget true s.revoked (s.flashNat 38 1) = false ∧
      d = BitVec.ofNat 512 (beNat (sha512 (s.flashBytes 3328 133))))) ∧
  (∀ s : State, s.startup.refusal = 0 → let place := s.startup.board.eeprom.bind placementRecord
    let t := s.readPattern
    (∀ rank site, place = some (rank, site) →
      t.startup.rank = BitVec.ofNat 11 rank ∧ t.startup.site = BitVec.ofNat 3 site ∧ t.crown.rankNow = BitVec.ofNat 11 rank) ∧
    (s.flash0 = true → s.journal = true → t.startup.refusal = 0x06 ∧ t.startup.header = s.startup.header) ∧
    ((s.flash0 = false ∨ s.journal = false) → (s.imageCode ≠ 0 → t.startup.refusal = s.imageCode ∧ t.startup.done = s.startup.done ∧
        (t.startup.header = some s.readHeader ↔ (s.imageCode ≠ 0x01 ∧ s.imageCode ≠ 0x02) ∨ s.startup.header = some s.readHeader)) ∧
      (s.imageCode = 0 → t.startup.header = some s.readHeader ∧ t.startup.keySlot = BitVec.ofNat 2 s.readHeader.keySlot ∧
        (place = none → t.startup.refusal = 0x08) ∧
        (∀ rank site, place = some (rank, site) → rank < 2048 → if t.routeRanks ≤ rank then t.startup.refusal = 0x08
          else t.startup.refusal = 0 ∧ 3 ∈ t.startup.done))) ∧
    t = { s with startup := t.startup, crown := { s.crown with rankNow := t.crown.rankNow } }) ∧
  (∀ (r : SelfTest) (s : State), let may := startGoes s ∧ 3 ∈ s.startup.done ∧ 4 ∉ s.startup.done
    (¬ may → exec (.selfTestDone r) s = .next s) ∧
    (may → ∃ t, exec (.selfTestDone r) s = .next t ∧
      (∀ p, p < 56 → (t.tile p).selfTestOk = decide (p ∉ r.badTiles) ∧ (t.tile p).revision = if p ∈ r.badTiles then 0xFF else lget 0 r.tileRev p) ∧
      (∀ h, h < 8 → (t.hub h).selfTestOk = decide (h ∉ r.badHubs) ∧ (t.hub h).revision = lget 0 r.hubRev h) ∧
      ((∃ h, h < 8 ∧ h ∈ r.badHubs) → t.startup = { s.startup with refusal := 0x0B }) ∧
      ((∀ h, h < 8 → h ∉ r.badHubs) → t.startup.done = addOnce (addOnce s.startup.done 4) 5 ∧
        (t.startup.refusal = 0 ↔ t.isDegraded = false) ∧ (t.startup.refusal ≠ 0 → t.startup.refusal = 0x0B) ∧
        ∀ h k, h < 8 → k < 7 → let good := fun k : Nat => (t.tile (7 * h + k)).selfTestOk && !((t.hub h).chan k).failed k
          let j := ((List.range k).filter good).length
          t.posOf h k = if good k = true ∧ j < 6 then (true, false, j) else (false, ((t.hub h).chan k).failed k, 0)))) ∧
  (∀ (r : MemTrain) (s : State), let may := startGoes s ∧ 6 ∈ s.startup.done ∧ 7 ∉ s.startup.done
    let cap := fun h : Nat => lget (0, 0) r.slow h
    (¬ may → exec (.memoryTrainDone r) s = .next s) ∧
    (may → ∃ t, exec (.memoryTrainDone r) s = .next t ∧
      (∀ h, h < 8 → (t.hub h).hbmStacks = min 3 (lget 0 r.hbm h) ∧ (t.hub h).slowSize = if 3 < (cap h).1 then 0 else (cap h).1) ∧
      (s.slowReq = none → t.startup.refusal = 0x07 ∧ t.mem = s.mem) ∧
      (∀ q, s.slowReq = some q → let good := (∀ h, h < 8 → lget 0 r.hbm h = 3 ∧ (cap h).1 = (cap 0).1 ∧ (cap h).2 = (cap 0).1) ∧
          (cap 0).1 ≤ 3 ∧ q ≤ (cap 0).1
        (¬ good → t.startup.refusal = 0x0C ∧ t.mem = s.mem) ∧
        (good → t.startup.refusal = 0 ∧ t.startup.done = addOnce (addOnce s.startup.done 7) 8 ∧ t.mem = [] ∧ t.memErr = [] ∧ t.poison = [] ∧
          ∀ h b n, (t.hub h).valid b n = false)))) ∧
  (∀ s : State, let may := startGoes s ∧ 8 ∈ s.startup.done ∧ 11 ∉ s.startup.done ∧ s.portsUp = true
    let u := withOrders s [9, 10]
    (¬ may → exec .mouldLoad s = .next s) ∧
    (may → ((∃ x ∈ s.header.sections, beNat (sha512 (s.flashBytes x.offset x.length)) ≠ x.digest) →
        exec .mouldLoad s = .next (refusedWith u 0x07)) ∧
      ((∀ x ∈ s.header.sections, beNat (sha512 (s.flashBytes x.offset x.length)) = x.digest) → ∃ v : State,
        let l := s.readSections
        let d := l.sets.find? fun m => m.mapping == s.header.defaultSet
        let q := l.route.timeSrc
        v = { u with
          loaded := { l with loaded := d.isSome }, crown := { s.crown with mapping := s.header.defaultSet }
          startup := { u.startup with spare := match d with | some m => decide (m.ranks ≤ s.startup.rank.toNat) | none => false }
          time := { s.time with src := q % 32, state := if q = 0x1E then .free else s.time.state } } ∧
        exec .mouldLoad s = .next (if v.loadCode ≠ 0 then refusedWith v v.loadCode else withOrders v.install [11])))) ∧
  (∀ s : State, let due := s.startup.refusal ≠ 0 ∨ (11 ∈ s.startup.done ∧ s.importing = false ∧
      (s.startup.imported = true ∨ s.startup.hostStart = true ∨ (s.header.autoStart = true ∧ s.header.initSet ≠ 0xFFFF)))
    let may := s.crownOn = true ∧ s.startup.service = false ∧ s.loaded.loaded = true ∧ s.startup.readySent = false ∧ due ∧ s.coordReachable = true
    let b := s.readyBody true
    let v := if s.startup.refusal = 0 then withOrders s [12] else s
    let u : State := { v with crown := { s.crown with leader := BitVec.ofNat 11 s.coord }, startup := { v.startup with readySent := true } }
    (¬ may → exec .startupReadySend s = .next s) ∧
    (may → exec .startupReadySend s = .next (if s.crown.rankNow.toNat = s.coord then u.startReady s.crown.rankNow.toNat b
      else u.routePrio { u.prioHead s.coord false 1 with epoch := 0 } (.ready b))))

/-- R416, R418, R420, R421, R424 to R426, R428, R431 to R433, R446: an error of an active group is recorded once in its direction, marks the channel, counts
and is a fault of the receiving die; a spare group that errs is marked out without a fault; version records settle version and
features, and a die of another contract version refuses start; a direction's ways take its active groups in order, the control way first. -/
def Obligations.Panel : Prop :=
  (∀ (die : Fin 57) (h : Fin 8) (c : Fin 14) groups (s : State), (∀ rx, ¬ errsAt s die h c rx) →
    exec (.d2dParityError die h c groups) s = .next s) ∧
  (∀ (die : Fin 57) (h : Fin 8) (c : Fin 14) rx (s : State), errsAt s die h c rx →
    let active := (((s.hub h).chan c).dir rx).active c
    let raised := fun (cause g : Nat) (t : State) => ∃ u v : State,
      (∀ k q, (u.hub k).chan q = if k = h.val ∧ q = c.val ∨ chanPeer h c = some k ∧ q = farChan c then (u.hub k).chan q else (s.hub k).chan q) ∧
      ((u.hub h).chan c).dir rx = { ((s.hub h).chan c).dir rx with once := (((s.hub h).chan c).dir rx).once ++ [g] } ∧
      ((u.hub h).chan c).dir (!rx) = ((s.hub h).chan c).dir (!rx) ∧
      (∃ k q, (k = h.val ∧ q = c.val ∨ chanPeer h c = some k ∧ q = farChan c) ∧ ((u.hub k).chan q).fault = true ∧
        ((u.hub k).chan q).parityGroup = BitVec.ofNat 8 g) ∧
      u = { s with hubs := u.hubs } ∧ (∀ k, u.hub k = { s.hub k with chans := (u.hub k).chans }) ∧ v = u.dieDross die 0x0D 1 ∧
      let num := ((s.chanDie h c rx).map Prod.snd).getD 0xF
      let r : Report := { die := die, code := 0x05, body := (body [(64, s.stepNo), (6, die), (4, num), (2, cause), (7, g)]) }
      if die.val = 56 then faultTaken v t r else t = { v with crown := { v.crown with reports := v.crown.reports ++ [r] } }
    (∀ groups, (∀ g ∈ active, g ∉ groups) → exec (.d2dParityError die h c groups) s = .next s) ∧
    (∀ groups l g r, active = l ++ g :: r → g ∈ groups → (∀ x ∈ l, x ∉ groups) →
      ∃ t, exec (.d2dParityError die h c groups) s = .next t ∧ raised 0 g t) ∧
    (∀ g, g ∉ active → exec (.d2dAckTimeout die h c g) s = .next s) ∧
    (∀ g, g ∈ active → ∃ t, exec (.d2dAckTimeout die h c g) s = .next t ∧ raised 1 g t)) ∧
  (∀ (h : Fin 8) (c : Fin 14) rx g (s : State), let d := ((s.hub h).chan c).dir rx
    (hasChan h c = false ∨ g ∉ d.spares c → exec (.spareGroupError h c rx g) s = .next s) ∧
    (hasChan h c = true → g ∈ d.spares c → ∃ t, exec (.spareGroupError h c rx g) s = .next t ∧
      ((t.hub h).chan c).dir rx = { d with out := d.out ++ [g] } ∧ (((t.hub h).chan c).dir rx).active c = d.active c ∧
      t.crown = { s.crown with dross := t.crown.dross } ∧ t = { s with hubs := t.hubs, tiles := t.tiles, crown := t.crown })) ∧
  (∀ (d : ChanDir) c, let good := (List.range (if c = 13 then 4 else 102)).filter fun g => decide (g ∉ d.out)
    d.active c ++ d.spares c = good ∧ (d.active c).length = min (if c = 13 then 2 else 96) good.length ∧
    (d.failed c = true ↔ if c = 13 then good = [] else good.length < 80)) ∧
  (∀ (h : Fin 8) (c : Fin 14) b (s : State),
    let may := hasChan h c = true ∧ b.kind.toNat = (if c.val < 7 then 0 else if c.val = 13 then 2 else 1) ∧ 5 ∈ s.startup.done ∧
      s.startup.service = false
    (¬ may → exec (.ver h c b) s = .next s) ∧
    (may → ∃ t, exec (.ver h c b) s = .next t ∧ onlyHub { s with startup := t.startup } t h ∧
      t.hub h = { s.hub h with chans := (t.hub h).chans } ∧ (∀ k, k ≠ c.val → (t.hub h).chan k = (s.hub h).chan k) ∧
      (t.hub h).chan c = { (s.hub h).chan c with version := if b.version = 0 then 0 else 1, features := b.features &&& (Config.features 1).setWidth 64 } ∧
      t.startup = { s.startup with refusal := t.startup.refusal, done := t.startup.done } ∧
      t.startup.refusal = (if b.contract.toNat = s.header.contract ∨ s.startup.refusal ≠ 0 ∨ 11 ∈ s.startup.done then s.startup.refusal else 0x09) ∧
      let trained := ∀ h c, h < 8 → c < 14 → hasChan h c = true →
        ((t.hub h).chan c).version ≠ 0 ∨ ((t.hub h).chan c).tx.good c = [] ∨ ((t.hub h).chan c).rx.good c = []
      (t.startup.refusal = 0 → trained → t.startup.done = addOnce s.startup.done 6) ∧
      (t.startup.refusal ≠ 0 ∨ ¬ trained → t.startup.done = s.startup.done))) ∧
  (∀ (s : State) h c, h < 8 → c < 14 → hasChan h c = true → let x := (s.hub h).chan c
    (s.sendVers.hub h).chan c = { x with verSent := (x.tx.good c).head?.map fun g =>
      (g, { kind := 1, revision := (s.hub h).revision, version := 1, features := (Config.features 1).setWidth 64, contract := 1 }) }) ∧
  (∀ (s : State) h c rx, let w := s.waysOf h c rx
    w.length ≤ 16 ∧ (∀ i x, w[i]? = some x → 1 ≤ x.weight ∧ x.weight ≤ 255 ∧ (x.ends = none ↔ i = 0)) ∧
    ∃ n, w.flatMap Way.groups = (s.activeSet h c rx).take n)

/-- R384, R471, R508 to R513, R515, R516, R575: the link comes up with its IDENT, HELLO and then the queue, oldest first; a frame goes out as
its header and padded payload in DATA flits of stream 0, each followed by an IDLE flit on its lane; it goes down without a fault,
and what was not acknowledged waits again; a full queue drops its oldest STEP or EVENT frame; an operation ends with one COMPLETE;
a code that no command has is acknowledged BAD_OPCODE under the rules of tags. -/
def Obligations.HostFrames : Prop :=
  (∀ (version : Byte) flight (s : State), let may := s.crownOn = true ∧ 2 ∈ s.startup.done ∧ s.link.up = false ∧ flight ≤ 5000
    let w : State := { s with link := { s.link with
      up := true, version := if version = 0 then 0 else 1, flight := BitVec.ofNat 16 flight, lanes := 0xF, queue := [], next := 0
      line := s.link.line ++ [(0, onYhl s.link.line.length 3 0 ((Config.ctrlBytes 7 [1]).take 4096)), (0, onYhl (s.link.line.length + 1) 0 0 [])] } }
    let hello : DevFrame := { type := 0x85, param0 := BitVec.ofNat 64 w.versions, param1 := BitVec.ofNat 64 s.jobStatus }
    (¬ may → exec (.yhlLinkUp version flight) s = .next s) ∧
    (may → ∃ t, exec (.yhlLinkUp version flight) s = .next t ∧ t.link = (hello :: s.link.queue).foldl Link.send w.link ∧
      t.crown = { s.crown with log := s.crown.log.map fun (e : Nat × LogEntry) =>
        if ∃ f ∈ s.link.queue, f.eventSeq = some e.2.seq.toNat then (e.1, { e.2 with read := true }) else e } ∧
      t = { w with link := t.link, crown := t.crown })) ∧
  (∀ unacked (s : State), let k := s.link.sent.length - unacked
    (s.link.up = false → exec (.yhlLinkDown unacked) s = .next s) ∧
    (s.link.up = true → ∃ t, exec (.yhlLinkDown unacked) s = .next t ∧
      t.link = { s.link with up := false, downed := true, lanes := 0, sent := s.link.sent.take k, queue := s.link.sent.drop k ++ s.link.queue } ∧
      t.crown = { s.crown with log := s.crown.log.map fun (e : Nat × LogEntry) =>
        if ∃ f ∈ s.link.sent.drop k, f.eventSeq = some e.2.seq.toNat then (e.1, { e.2 with read := false }) else e } ∧
      t = { s with link := t.link, crown := t.crown })) ∧
  (∀ (f : DevFrame) (s : State), let q := s.link.queue ++ [f]
    let queued := fun (l : List DevFrame) => ({ s with link := { s.link with queue := l } } : State)
    let drops := fun (g : DevFrame) => g.type = 0x82 ∨ g.type = 0x83
    (s.link.up = true → f.eventSeq = none → s.sendFrame f = { s with link := s.link.send f }) ∧
    (s.link.up = false → q.length ≤ 512 → s.sendFrame f = queued q) ∧
    (s.link.up = false → 512 < q.length → (∀ g ∈ q, ¬ drops g) → s.sendFrame f = queued q) ∧
    (∀ l g r, s.link.up = false → 512 < q.length → q = l ++ g :: r → drops g → (∀ x ∈ l, ¬ drops x) → s.sendFrame f = queued (l ++ r))) ∧
  (∀ (l : Link) (f : DevFrame), ∃ bs : List (List Byte), bs.flatten = frameBytes f ∧ (∀ b ∈ bs, 1 ≤ b.length ∧ b.length ≤ 4096) ∧
    l.send f = { l with sent := l.sent ++ [f], next := l.next + BitVec.ofNat 24 bs.length, line := l.line ++ bs.zipIdx.flatMap fun x =>
      let n := l.next + BitVec.ofNat 24 x.2
      [(n.toNat % 4, onYhl (l.line.length + 2 * x.2) 1 n x.1), (n.toNat % 4, onYhl (l.line.length + 2 * x.2 + 1) 0 0 [])] }) ∧
  (∀ (s : State) h st p0 p1, s.complete h st p0 p1 = (withOps s (terase s.crown.ops h)).sendFrame
    { type := 0x81, status := st, handle := BitVec.ofNat 32 h, param0 := p0, param1 := p1 }) ∧
  (∀ (opcode : Byte) f (s : State), let n := opcode.toNat
    let known := (1 ≤ n ∧ n ≤ 17 ∧ n ≠ 9) ∨ (0x20 ≤ n ∧ n ≤ 0x25)
    (known → exec (.badOpcode opcode f) s = .next s) ∧
    (¬ known → ∃ t, exec (.badOpcode opcode f) s = .next t ∧ hosted f 0xFF (answers 0x03) s t))

/-- R303, R305, R368, R372, R455, R465, R494, R497, R502, R511 to R518, R526, R549, R556: what START, SUSPEND, RESUME, CANCEL and SWITCH_MAPPING do
in each state of the job and of the operation they name, and what a cancelled job leaves. -/
def Obligations.JobCommands : Prop :=
  (∀ f (s : State), ∃ t, exec (.start f) s = .next t ∧ hosted f 0 (servedIn false false fun v r u =>
    let c := v.crown
    let w : State := { withOps v (tset c.ops 1 .job) with startup := { v.startup with hostStart := true } }
    if v.startup.refusal ≠ 0 ∨ 2 ∉ v.startup.done then answers 0x05 v r u
    else if c.rstate = .stalled then r = { handle := 1 } ∧ (v.tracing = false → abortBegun v u c.voted.isSome ∧ u.crown.attempt = 0)
    else if c.rstate ≠ .idle ∨ v.startup.started = true then answers (if c.rankNow.toNat = v.coord then 0x05 else 0x0A) v r u
    else if v.startup.readySent = true ∧ c.rankNow.toNat ≠ v.coord then answers 0x0A v r u
    else if v.startup.readySent = false ∧ v.header.initSet = 0xFFFF ∧ v.startup.imported = false then answers 0x05 v r u
    else if thas c.ops 1 = false ∧ 16 ≤ c.ops.length then answers 0x01 v r u
    else r = { handle := 1 } ∧ u = if v.startup.readySent then w.tryStart else w) s t) ∧
  (∀ f (s : State), ∃ t, exec (.suspend f) s = .next t ∧ hosted f 0 (servedIn false false fun v r u =>
    let c := v.crown
    if f.handle ≠ 1 then pauses f.handle.toNat true v r u
    else if c.job ≠ .active ∨ c.rstate = .stalled then answers 0x05 v r u
    else if f.param0.toNat ≤ c.gen then answers 0x0B v r u
    else r = {} ∧ u = { v with crown := { c with suspend := some (f.param0.toNat, f.param1.getLsbD 0) } }) s t) ∧
  (∀ f (s : State), ∃ t, exec (.resume f) s = .next t ∧ hosted f 0 (servedIn false false fun v r u =>
    let c := v.crown
    let ms := v.mouldSet.step.softStartMs
    let stays : State := { v with power := { v.power with entering := false } }
    let w : State := if v.power.entering then (match c.ops.find? (fun o => o.2 == .mitten) with
        | some o => stays.complete o.1 0x0D 0 0
        | none => stays)
      else if v.power.mitten then ({ v with power := { v.power with mitten := false, waking := true } } : State).trainChans else v
    if f.handle ≠ 1 then pauses f.handle.toNat false v r u
    else if c.job ≠ .suspended ∨ c.rstate = .stalled then answers 0x05 v r u
    else r = {} ∧ u = { w with
      crown := { w.crown with job := .active, deadline := decide (c.rstate = .running) }
      power := { w.power with soft := if ms = 0 then none else some (v.power.pin, ms, 0) } }) s t) ∧
  (∀ f (s : State), ∃ t, exec (.cancel f) s = .next t ∧ hosted f 0 (servedIn false false fun v r u =>
    let c := v.crown
    let h := f.handle.toNat
    if h = 1 then
      if c.job ≠ .active ∧ c.job ≠ .suspended then answers 0x05 v r u
      else if c.rankNow.toNat ≠ v.coord then answers 0x0A v r u
      else if c.rstate = .stalled ∨ (c.rstate = .running ∧ c.job = .suspended) then
        r = {} ∧ u = (v.recordDecision (c.gen + 1) true 4).cancelJob (c.gen + 1)
      else r = {} ∧ u = { v with crown := { c with cancelPending := true } }
    else if thas c.ops h = false then answers 0x05 v r u
    else match tget .job c.ops h with
      | .switch _ _ => if c.reshard.isSome then answers 0x05 v r u
        else r = {} ∧ u = ({ v with crown := { c with switch := none } } : State).complete h 0x0E 0 0
      | .exporting _ _ _ => r = {} ∧ u = v.complete h 0x0E 0 0
      | .importing _ _ _ _ => r = {} ∧ ∃ w : State, (∀ k, w.hub k = { v.hub k with tags := [], covered := [] }) ∧
          w = { v with hubs := w.hubs } ∧ u = w.complete h 0x0E 0 0
      | .replay _ _ => r = {} ∧ replayEnded v u h 0x0E
      | _ => answers 0x05 v r u) s t) ∧
  (∀ f (s : State), ∃ t, exec (.switchMapping f) s = .next t ∧ hosted f 0 (servedIn false false fun v r u =>
    let c := v.crown
    let after := f.param0.toNat
    let m := f.param1.toNat % 65536
    if (c.job ≠ .active ∧ c.job ≠ .suspended) ∨ c.switch.isSome = true ∨ c.rstate = .stalled then answers 0x05 v r u
    else if after ≤ c.gen then answers 0x0B v r u
    else opensOp (.switch after m) (fun h w z => z = if v.switchOk m then { w with crown := { w.crown with switch := some (h, after, m) } }
      else w.complete h 0x0D 0 0) v r u) s t) ∧
  (∀ (s : State) g, let t := s.cancelJob g
    t.crown.job = .ended ∧ t.crown.rstate = .idle ∧ t.crown.openStep = none ∧ t.crown.held = none ∧ t.crown.voted = none ∧ t.crown.feeds = [] ∧
    t.crown.switch = none ∧ t.crown.suspend = none ∧ t.crown.cancelPending = false ∧ t.crown.gen = s.crown.gen ∧ thas t.crown.ops 1 = false ∧
    (∀ h, provDropped (s.hub h).tags (t.hub h).tags ∧ t.hub h = { s.hub h with tags := (t.hub h).tags }) ∧
    (∀ p, provDropped (s.tile p).risers (t.tile p).risers ∧ t.tile p = { s.tile p with risers := (t.tile p).risers }) ∧
    (s.link.up = true → ∃ l, t.link.sent = l ++ [{ type := 0x81, status := 0x0E, handle := 1 }]) ∧ t.mem = s.mem ∧ t.flash = s.flash ∧
    t.startup = s.startup ∧ t.time = s.time)

/-- R493, R510, R513, R515, R516, R519: an export sends every range in pieces and changes no stored byte that it can read; an import takes whole
chunks within one tagged range, checks each CRC, and ends with its tags FINAL or every tag EMPTY. -/
def Obligations.Images : Prop :=
  (∀ f (s : State), ∃ t, exec (.exportCkpt f) s = .next t ∧ hosted f 0 (servedIn true false fun v r u =>
    let src := f.param0.toNat
    let plan := (List.range 8).flatMap fun h => (sourceRanges v src h).flatMap fun q => piecesOf h q.1 q.2
    if 2 < src then answers 0x04 v r u
    else if v.crown.job ≠ .suspended ∧ v.crown.job ≠ .ended ∧ v.crown.rstate ≠ .stalled then answers 0x05 v r u
    else opensOp (.exporting src plan false) (fun h w z =>
      z = if plan = [] then w.complete h (if src = 1 then 0x0D else 0x00) (exportGen w src) 0 else w) v r u) s t) ∧
  (∀ (handle : W32) (s : State), let h := handle.toNat
    ((∀ src c rest, tget .job s.crown.ops h ≠ .exporting src (c :: rest) false) → exec (.exportChunk handle) s = .next s) ∧
    (s.diesOn = false → exec (.exportChunk handle) s = .next s) ∧
    (∀ src hub a n rest, tget .job s.crown.ops h = .exporting src ((hub, a, n) :: rest) false → s.diesOn = true →
      ∃ (t w : State) (d : Option (List Byte)), exec (.exportChunk handle) s = .next t ∧ s.agentRead hub 0x3 (a + sourceBase s src hub) n = (d, w) ∧
      (quiet s → w.mem = s.mem ∧ w.poison = s.poison) ∧ (d = none → t = w.complete h 0x0D 0 0) ∧
      (∀ b, d = some b → ∃ x : State,
        chunkSent w x handle (leBytes 8 (hub * 2 ^ 61 + a % 2 ^ 42) ++ leBytes 8 ((crc32c b).toNat * 2 ^ 32 + b.length) ++ b) (rest == []) ∧
        let y := withOps x (tset x.crown.ops h (.exporting src rest false))
        t = if rest = [] then y.complete h 0x00 (exportGen y src) 0 else y))) ∧
  (∀ f (s : State), ∃ t, exec (.importCkpt f) s = .next t ∧ hosted f 0 (servedIn false false fun v r u =>
    let early := 11 ∈ v.startup.done ∧ v.startup.readySent = false ∧ v.startup.refusal = 0
    if (¬ early ∧ v.crown.rstate ≠ .stalled) ∨ v.importing = true ∨ v.power.mitten = true ∨ v.power.quenched = true then answers 0x05 v r u
    else opensOp (.importing f.param0.toNat [] [] false) (fun _ w z => z = w) v r u) s t) ∧
  (∀ f (s : State), ∃ t, exec (.ckptData f) s = .next t ∧ hosted f 1 (servedIn false false fun v r u =>
    let h := f.handle.toNat
    match tget .job v.crown.ops h with
    | .importing g held written twice =>
      let b := held ++ f.payload
      let x := State.importChunks (b.length / 16 + 1) v { gen := g, held := b, written := written, twice := twice }
      let i := x.1
      let w := withOps x.2 (tset x.2.crown.ops h (.importing g i.held i.written i.twice))
      r = { status := i.status } ∧ (f.flags.getLsbD 0 = false → u = w) ∧
      (f.flags.getLsbD 0 = true → (w.importWhole i = true → ∃ z : State,
          (∀ k, k < 8 → (z.hub k).covered = [] ∧ (z.hub k).badSeen = [] ∧ (z.hub k).relabel = false ∧
            z.hub k = { w.hub k with covered := [], badSeen := [], relabel := false, tags := (z.hub k).tags } ∧
            (∀ q, tget .empty (z.hub k).tags q = .empty ∨ (tget .empty (z.hub k).tags q = .final g ∧ q % 2 = g % 2 ∧ q / 2 < (w.taggedRanges k).length)) ∧
            ∀ q x, (w.taggedRanges k)[q / 2]? = some x → 0 < x.2 → (tget .empty (z.hub k).tags q = .final g ↔ q % 2 = g % 2 ∧
              ∀ b, x.1 ≤ b → b < x.1 + x.2 → ∃ e ∈ w.ckptRanges k, e.1 ≤ b ∧ b < e.1 + e.2.1)) ∧
          z = { w with hubs := z.hubs, crown := { w.crown with
            gen := g, importDue := true, held := none, voted := none, commitHeld := false, relabel := false, priorIntact := false
            reshard := none, reshardIn := [], phaseDone := [], phaseHeld := false } } ∧
          let y := match w.crown.switch with
            | some (k, after, _) => if after ≤ g then ({ z with crown := { z.crown with switch := none } } : State).complete k 0x0D 0 0 else z
            | none => z
          u = ({ y with startup := { y.startup with imported := true } } : State).complete h 0x00 0 0) ∧
        (w.importWhole i = false → ∃ z : State, (∀ k, z.hub k = { w.hub k with tags := [], covered := [] }) ∧ z = { w with hubs := z.hubs } ∧
          u = z.complete h 0x0D 0 0))
    | _ => answers 0x04 v r u) s t) ∧
  (∀ k (s : State) (i : Import), let w0 := leNat (i.held.take 8)
    let w1 := leNat ((i.held.drop 8).take 8)
    let n := w1 % 2 ^ 32
    let hub := w0 / 2 ^ 61 % 8
    let a := w0 % 2 ^ 42
    let b := (i.held.drop 16).take n
    let rest : Import := { i with held := i.held.drop (16 + n) }
    (i.held.length < 16 → State.importChunks (k + 1) s i = (i, s)) ∧
    (16 ≤ i.held.length → n % 32 ≠ 0 ∨ 1048576 < n → State.importChunks (k + 1) s i = ({ i with held := [], status := 0x04 }, s)) ∧
    (16 ≤ i.held.length → n % 32 = 0 → n ≤ 1048576 →
      (i.held.length < 16 + n → State.importChunks (k + 1) s i = (i, s)) ∧
      (16 + n ≤ i.held.length →
        ((∀ r ∈ s.taggedRanges hub, a < r.1 ∨ r.1 + r.2 < a + n) →
          State.importChunks (k + 1) s i = State.importChunks k s { rest with status := 0x04 }) ∧
        ((∃ r ∈ s.taggedRanges hub, r.1 ≤ a ∧ a + n ≤ r.1 + r.2) →
          ((crc32c b).toNat ≠ w1 / 2 ^ 32 → State.importChunks (k + 1) s i = State.importChunks k s { rest with status := 0x08 }) ∧
          ((crc32c b).toNat = w1 / 2 ^ 32 → ∃ again : Bool, (again = true ↔ ∃ w ∈ i.written, w.1 = hub ∧ w.2.1 < a + n ∧ a < w.2.2) ∧
            State.importChunks (k + 1) s i = State.importChunks k (s.agentWrite hub (a + i.gen % 2 * s.bankSpan) b)
              { rest with written := i.written ++ [(hub, a, a + n)], twice := i.twice || again }))))) ∧
  (∀ (s : State) (i : Import), (∀ h, h < 8 → ∀ r ∈ s.ckptRanges h, 0 < r.2.1) → (∀ w ∈ i.written, w.2.1 ≤ w.2.2) →
    (s.importWhole i = true ↔ i.twice = false ∧ ∀ h, h < 8 → ∀ r ∈ s.ckptRanges h, ∀ b, r.1 ≤ b → b < r.1 + r.2.1 →
      ∃ w ∈ i.written, w.1 = h ∧ w.2.1 ≤ b ∧ b < w.2.2))

/-- R464 to R468, R515, R516, R522 to R526: feed is taken for the steps that the device expects, segment by segment, with its CRC; a replay runs
over the feed that it has or awaits, writes no tagged range and opens no step, and ends with its record. -/
def Obligations.FeedAndReplay : Prop :=
  (∀ f (s : State), (f.param1.toNat / 2 ^ 48 ≠ 0xFFFF → exec (.feedManifest f) s = .next s) ∧
    (f.param1.toNat / 2 ^ 48 = 0xFFFF → ∃ t, exec (.feedManifest f) s = .next t ∧ hosted f 0 (servedIn false false fun v r u =>
      let g := f.param0.toNat
      match feedRefusal v g with
      | some st => answers st v r u
      | none =>
        ((∀ m, ¬ manifestOf g f.payload m) ∨ f.param1.toNat % 2 ^ 48 ≠ 0 → answers 0x04 v r u) ∧
        (∀ m, manifestOf g f.payload m → f.param1.toNat % 2 ^ 48 = 0 → r = {} ∧
          ((v.feedOf g).manifest = some m → u = v) ∧
          ((v.feedOf g).manifest ≠ some m → ∃ fd : Feed, fd.manifest = some m ∧ fd.got = [] ∧
            (∀ i, tget false fd.complete i = decide (i < m.segs.length ∧ (lget (0, 0, 0) m.segs i).2.2 = 0 ∧ (lget (0, 0, 0) m.segs i).2.1 = 0)) ∧
            replayTried (v.setFeed g fd) u))) s t)) ∧
  (∀ f (s : State), (f.param1.toNat / 2 ^ 48 = 0xFFFF → exec (.feedSegment f) s = .next s) ∧
    (f.param1.toNat / 2 ^ 48 ≠ 0xFFFF → ∃ t, exec (.feedSegment f) s = .next t ∧ hosted f 0 (servedIn false false fun v r u =>
      let g := f.param0.toNat
      let k := f.param1.toNat / 2 ^ 48
      let off := f.param1.toNat % 2 ^ 48
      let fd := v.feedOf g
      match feedRefusal v g, fd.manifest with
      | some st, _ => answers st v r u
      | none, none => answers 0x05 v r u
      | none, some m =>
        let x := lget (0, 0, 0) m.segs k
        let got := addRange (tget [] fd.got k) (off, off + f.payload.length)
        let due := tget false fd.complete k = false ∧ coversRange got 0 x.2.2 = true
        if m.segs.length ≤ k ∨ x.2.2 < off + f.payload.length then answers 0x04 v r u
        else ∃ w : State,
          (segmentGood v m k → f.payload ≠ [] → w = v.agentWrite (x.1 / hbmSlice) (x.1 + off) f.payload) ∧
          (¬ segmentGood v m k ∨ f.payload = [] → w = v) ∧
          (¬ due → r = {} ∧ u = w.setFeed g { fd with got := tset fd.got k got }) ∧
          (due → segmentGood v m k → crc32c (readBytes w.mem x.1 x.2.2) = x.2.1 → r = {} ∧
            replayTried (w.setFeed g { fd with got := tset fd.got k got, complete := tset fd.complete k true }) u) ∧
          (due → ¬ segmentGood v m k ∨ crc32c (readBytes w.mem x.1 x.2.2) ≠ x.2.1 → r = { status := 0x08 } ∧ ∃ z : State,
            z = w.setFeed g { fd with got := terase fd.got k } ∧ u = { z with crown := { z.crown with crcBad := true } })) s t)) ∧
  (∀ (s : State) g (f : Feed), (g = s.crown.gen → s.feedOf g = (match s.crown.keptFeed with | some k => k.2 | none => {}) ∧
      s.setFeed g f = { s with crown := { s.crown with keptFeed := some (g, f) } }) ∧
    (g ≠ s.crown.gen → s.feedOf g = tget {} s.crown.feeds g ∧ s.setFeed g f = { s with crown := { s.crown with feeds := tset s.crown.feeds g f } })) ∧
  (∀ f (s : State), (∀ n k, n < 48 → k < 48 → s.phys n = s.phys k → n = k) →
    ∃ t, exec (.replayStep f) s = .next t ∧ hosted f 0 (servedIn false false fun v r u =>
    let c := v.crown
    let boundary := c.job = .suspended ∧ c.rstate = .running ∧ c.openStep = none ∧ c.reshard = none ∧ c.relabel = false
    if 1 < f.param1.toNat then answers 0x04 v r u
    else if (¬ boundary ∧ c.rstate ≠ .stalled) ∨ c.priorIntact = false ∨ replaying v = true ∨ v.importing = true ∨ v.power.mitten = true ∨
        v.power.quenched = true ∨ v.power.entering = true then answers 0x05 v r u
    else if f.param0.toNat ≠ c.gen then answers 0x04 v r u
    else opensOp (.replay c.gen (f.param1.getLsbD 0)) (fun _ w z =>
      let waits : State := { w with crown := { w.crown with keptFeed := some (c.gen, {}), feeds := terase w.crown.feeds (c.gen + 2) } }
      match c.keptFeed with
      | some (_, k) => if k.whole then replayTried w z else z = waits
      | none => z = waits) v r u) s t) ∧
  (∀ s : State, let restart := decide (s.crown.rstate = .restarting ∧ s.crown.order = 9)
    let judged := fun (cause : Nat) (d : W64) (z t : State) => if d = s.crown.genDigest then t = z.sendDone
      else faultTaken z t { code := 0x16, body := body [(64, s.crown.gen), (2, cause), (64, s.crown.genDigest.toNat), (64, d.toNat)] }
    (s.crown.openStep = none → restart = false → exec .replayDone s = .next s) ∧
    (s.crown.openStep = none → restart = true → ∃ (t w : State) (d : Option W64), exec .replayDone s = .next t ∧ s.redigest = (d, w) ∧
      (d = none → t = w) ∧ (∀ x, d = some x → judged 2 x (replayLogged w x) t)) ∧
    (∀ o, s.crown.openStep = some o → (o.replay = false ∨ s.workDone = false) → exec .replayDone s = .next s) ∧
    (∀ o, s.crown.openStep = some o → o.replay = true → s.workDone = true → ∃ t w : State, exec .replayDone s = .next t ∧
      let d := s.stepDigest
      let z := replayLogged w d
      (∀ p, tileCleared (s.tile p) (w.tile p) false ∧ provDropped (s.tile p).risers (w.tile p).risers) ∧
      (∀ h, (w.hub h).lists = [] ∧ (w.hub h).upds = [] ∧ (w.hub h).slots = (s.hub h).slots ∧ provDropped (s.hub h).tags (w.hub h).tags) ∧
      w.crown = { s.crown with openStep := none, replayFeed := false
                               keptFeed := if s.mouldSet.step.replayOnRestart then s.crown.keptFeed else none } ∧
      w = { s with tiles := w.tiles, hubs := w.hubs, crown := w.crown } ∧
      (restart = true → judged 0 d z t) ∧
      (restart = false → let y := if s.crown.replayFeed && !s.mouldSet.step.replayOnRestart then rewound z z.nextFeed else z
        (replaying s = false → t = y) ∧ (∀ h ramp, s.replayOp = some (h, ramp) → t = y.complete h 0x00 d s.crown.genDigest))))

/-- R203, R232, R235, R258, R442, R471, R472, R474, R506, R515, R521, R534, R535: READ_REG answers consecutive registers, or the status of the
first that has none; WRITE_REG acts field by field on the registers of the list and is DENIED elsewhere; the clears that they start. -/
def Obligations.HostRegisters : Prop :=
  (∀ f (s : State), ∃ t, exec (.readReg f) s = .next t ∧ hosted f 0 (readsRegs f) s t) ∧
  (∀ f (s : State), let a := f.param0.toNat
    let hits := a % 8 = 0 ∧ a ≤ 0x3F000000040 ∧ 0x3F000000040 < a + 8 * f.param1.toNat
    (¬ hits → exec (.timeNowRead f) s = .next s) ∧ (hits → ∃ t, exec (.timeNowRead f) s = .next t ∧ hosted f 0 (readsRegs f) s t)) ∧
  (∀ f (s : State), ∃ t, exec (.writeReg f) s = .next t ∧ hosted f 0 (writesReg f) s t) ∧
  (∀ f (s : State), let hits := ∃ h, h < 8 ∧ f.param0.toNat = 0x3F100000018 + 0x1000000 * h ∧ f.param1.getLsbD 63 = true
    (¬ hits → exec (.hubPlateClearGo f) s = .next s) ∧ (hits → ∃ t, exec (.hubPlateClearGo f) s = .next t ∧ hosted f 0 (writesReg f) s t)) ∧
  (∀ f (s : State), let go := f.param0.toNat = 0x3F000000068 ∧ f.param1.getLsbD 31 = true
    (¬ (go ∧ f.param1.getLsbD 8 = false) → exec (.drossClearClass f) s = .next s) ∧
    (go → f.param1.getLsbD 8 = false → ∃ t, exec (.drossClearClass f) s = .next t ∧ hosted f 0 (writesReg f) s t) ∧
    (¬ (go ∧ f.param1.getLsbD 8 = true) → exec (.drossClearAll f) s = .next s) ∧
    (go → f.param1.getLsbD 8 = true → ∃ t, exec (.drossClearAll f) s = .next t ∧ hosted f 0 (writesReg f) s t)) ∧
  (∀ f (s : State), let go := f.param0.toNat = 0x3F000000060 ∧ f.param1.getLsbD 63 = true
    (¬ go → exec (.logClear f) s = .next s) ∧ (go → ∃ t, exec (.logClear f) s = .next t ∧ hosted f 0 (writesReg f) s t)) ∧
  (∀ (h : Fin 8) (s : State), ∃ t, exec (.hubPlateClearDone h) s = .next t ∧ onlyHub s t h ∧ t.hub h = { s.hub h with pcBusy := false }) ∧
  (∀ a (s : State), (a % 8 ≠ 0 → s.readReg a = .bad) ∧ (a < 0x3F000000000 → s.readReg a = .bad) ∧
    (0x3F200000000 + 48 * 0x100000 ≤ a → s.readReg a = .bad) ∧
    (∀ k, 8 * k < 0x100000000 → s.readReg (0x3F000000000 + 8 * k) = match s.crownReg (8 * k) with | some v => .value v | none => .bad) ∧
    (∀ h k, h < 8 → 8 * k < 0x1000000 → s.readReg (0x3F100000000 + 0x1000000 * h + 8 * k) =
      match s.hubReg h (8 * k) with | some v => if s.asleep then .asleep else .value v | none => .bad) ∧
    (∀ n k, n < 48 → 8 * k < 0x100000 → s.readReg (0x3F200000000 + 0x100000 * n + 8 * k) =
      match s.tileReg n (8 * k) with | some v => if s.asleep then .asleep else .value v | none => .bad)) ∧
  (∀ s : State, s.crownReg 0x40 = some (s.time.ns % 2 ^ 64) ∧ s.crownReg 0x48 = some s.time.sub.toNat ∧ s.crownReg 0x68 = some 0 ∧
    s.crownReg 0x28 = some s.crown.window.toNat ∧ s.crownReg 0x30 = some s.crown.genDigest.toNat ∧
    (∀ w, w < 8 → s.crownReg (0x200 + 8 * w) = some (tget 0 s.crown.stepLast w).toNat) ∧
    (∀ c, c < 32 → s.crownReg (0x100 + 8 * c) = some (tget 0 s.crown.dross c)) ∧
    (∀ i w, i < 4096 → w < 8 → s.crownReg (0x10000 + 64 * i + 8 * w) =
      some (if thas s.crown.log i then leNat (((tget {} s.crown.log i).bytes.drop (8 * w)).take 8) else 0)) ∧
    (∃ v, s.crownReg 0x00 = some v ∧ v < 2 ^ 64 ∧ v % 2 ^ 13 = 0 ∧ v / 2 ^ 13 % 2 ^ 8 = s.startup.peerCode.toNat ∧
      v / 2 ^ 21 % 2 ^ 11 = s.startup.peerRank.toNat ∧ v / 2 ^ 32 % 4 = s.startup.keySlot.toNat ∧ v / 2 ^ 34 % 2 ^ 11 = s.startup.rank.toNat ∧
      v / 2 ^ 45 % 8 = s.startup.site.toNat ∧ v.testBit 48 = s.startup.forced ∧ v.testBit 49 = s.startup.imported ∧
      v.testBit 50 = s.startup.spare ∧ v.testBit 51 = s.startup.service ∧ v / 2 ^ 56 = s.startup.refusal.toNat) ∧
    (∃ v, s.crownReg 0x10 = some v ∧ v < 2 ^ 48 ∧ v % 2 ^ 8 = s.link.expected.toNat ∧ v.testBit 8 = s.link.up ∧ v.testBit 9 = s.link.downed ∧
      v / 2 ^ 10 % 4 = 0 ∧ v / 2 ^ 12 % 16 = s.link.outstanding % 16 ∧ v / 2 ^ 16 % 16 = s.link.lanes.toNat ∧ v / 2 ^ 20 % 16 = 0 ∧
      v / 2 ^ 24 % 2 ^ 8 = s.link.version.toNat ∧ v / 2 ^ 32 = s.link.flight.toNat) ∧
    (∃ v, s.crownReg 0x18 = some v ∧ v < 2 ^ 16 ∧ v / 8 % 2 ^ 9 = 0 ∧
      v % 8 = (match s.crown.job with | .none => 0 | .active => 1 | .suspended => 2 | .ended => 3) ∧ v.testBit 12 = s.crown.cancelPending ∧
      v.testBit 13 = s.crown.suspend.isSome ∧ v.testBit 14 = s.crown.switch.isSome ∧ v.testBit 15 = s.power.mitten) ∧
    (∃ v, s.crownReg 0x60 = some v ∧ v = s.crown.head.toNat * 2 ^ 32 + s.crown.overwritten.toNat)) ∧
  (∀ (h : Nat) (s : State), ∃ v, s.hubReg h 0x18 = some v ∧ v < 2 ^ 63 ∧ v % 2 ^ 27 = (s.hub h).pcCount.toNat ∧
    v / 2 ^ 30 % 2 ^ 26 = (s.hub h).pcPlate.toNat ∧ v.testBit 56 = (s.hub h).pcTier ∧ v.testBit 61 = (s.hub h).pcRefused ∧
    v.testBit 62 = (s.hub h).pcBusy) ∧
  (∀ (n k : Nat) (s : State), k < 4 → let x := tget {} (s.ltile n).traps k
    ∃ v, s.tileReg n (0x60 + 8 * k) = some v ∧ v < 2 ^ 64 ∧ v % 2 ^ 32 = x.stepLo.toNat ∧ v / 2 ^ 32 % 2 ^ 8 = x.ctx.toNat ∧
    v / 2 ^ 40 % 2 ^ 14 = x.pc.toNat ∧ v.testBit 54 = false ∧ v.testBit 55 = x.valid ∧ v / 2 ^ 56 = x.cause.toNat) ∧
  (∀ a (s : State), (a = 0x3F000000040 → s.readEffect a = { s with time := { s.time with sub := BitVec.ofNat 16 s.time.counter } }) ∧
    (∀ i w, i < 4096 → w < 8 → a = 0x3F000010000 + 64 * i + 8 * w → (thas s.crown.log i = false → s.readEffect a = s) ∧
      (thas s.crown.log i = true → (let l := tset s.crown.log i { tget {} s.crown.log i with read := true };
        s.readEffect a = { s with crown := { s.crown with log := l } }))) ∧
    (a ≠ 0x3F000000040 → (a < 0x3F000010000 ∨ 0x3F000050000 ≤ a) → s.readEffect a = s)) ∧
  (∀ a v (s : State), (s.writeReg a v = none ↔ ¬ hostMayWrite a)) ∧
  (∀ v (s : State), let crown := fun off => s.writeReg (0x3F000000000 + off) v
    let set := fun (x : Crown) => some ({ s with crown := x } : State)
    let w := v % 65536
    crown 0x10 = some { s with link := { s.link with downed := stays s.link.downed v 9 } } ∧
    crown 0x28 = set { s.crown with window := if w = 0 ∨ 3600 < w then 60 else BitVec.ofNat 16 w } ∧
    crown 0x38 = set { s.crown with rewound := stays s.crown.rewound v 1, crcBad := stays s.crown.crcBad v 0 } ∧
    (let x : Time := { s.time with stepped := stays s.time.stepped v 2, ppsLost := stays s.time.ppsLost v 1, sourceLost := stays s.time.sourceLost v 0 };
      crown 0x50 = some { s with time := x }) ∧
    crown 0x60 = set { s.crown with overwritten := if v.testBit 63 then 0 else s.crown.overwritten } ∧
    (v.testBit 31 = false → crown 0x68 = some s) ∧
    (v.testBit 31 = true → ∃ t, crown 0x68 = some t ∧
      let keep := fun c => v.testBit 8 = false ∧ c ≠ v % 256
      (∀ c, tget 0 t.crown.dross c = if keep c then tget 0 s.crown.dross c else 0) ∧
      (∀ h c, tget 0 (t.hub h).dross c = if keep c then tget 0 (s.hub h).dross c else 0) ∧
      (∀ p c, tget 0 (t.tile p).dross c = if keep c then tget 0 (s.tile p).dross c else 0) ∧
      (∀ h, t.hub h = { s.hub h with dross := (t.hub h).dross }) ∧ (∀ p, t.tile p = { s.tile p with dross := (t.tile p).dross }) ∧
      t = { s with hubs := t.hubs, tiles := t.tiles, crown := { s.crown with dross := t.crown.dross } })) ∧
  (∀ (h : Nat) v (s : State), h < 8 → let x := s.hub h
    let writes := fun off (y : Hub) => ∃ t, s.writeReg (0x3F100000000 + 0x1000000 * h + off) v = some t ∧ onlyHub s t h ∧ t.hub h = y
    let p := v / 2 ^ 8 % 2 ^ 8
    writes 0x20 { x with fetPeriod := if p = 0 ∨ 168 < p then 24 else BitVec.ofNat 8 p, fetEnable := v.testBit 0 } ∧
    writes 0x28 { x with fetListFull := stays x.fetListFull v 16 } ∧
    writes 0x30 { x with updNonfinite := stays x.updNonfinite v 2, updDigestBad := stays x.updDigestBad v 1 } ∧
    writes 0x38 { x with gauntBad := stays x.gauntBad v 2, backupBad := stays x.backupBad v 1, origin := stays x.origin v 0 } ∧
    writes 0x40 { x with ckptBad := stays x.ckptBad v 1 } ∧
    writes 0x58 { x with cuff := { x.cuff with throttled := stays x.cuff.throttled v 0 } } ∧
    (∀ m, m < 2 → ∃ t, s.writeReg (0x3F100000000 + 0x1000000 * h + 0x60 + 8 * m) v = some t ∧ onlyPort s t h m ∧
      t.port h m = { s.port h m with failed := stays (s.port h m).failed v 3 }) ∧
    (∀ c, c < 14 → ∃ t, s.writeReg (0x3F100000000 + 0x1000000 * h + 0x80 + 8 * c) v = some t ∧
      (hasChan h c = false → t = s) ∧ (hasChan h c = true → onlyHub s t h ∧ t.hub h = { x with chans := (t.hub h).chans } ∧
        (∀ k, k ≠ c → (t.hub h).chan k = x.chan k) ∧ (t.hub h).chan c = { x.chan c with fault := stays (x.chan c).fault v 3 })) ∧
    (∃ t, s.writeReg (0x3F100000000 + 0x1000000 * h + 0x18) v = some t ∧
      let n := v / 2 ^ 30 % 2 ^ 26
      let k := v % 2 ^ 27
      let y : Hub := { x with pcTier := v.testBit 56, pcPlate := BitVec.ofNat 26 n, pcCount := BitVec.ofNat 27 k, pcRefused := stays x.pcRefused v 61 }
      let tier := v.testBit 56
      let size := if tier then 2 * slowCap x.slowSize / 4096 else if x.hbmStacks = 0 then 0 else hbmSlice / 4096
      let bad := s.crown.job = .active ∨ s.crown.job = .suspended ∨ s.crown.rstate = .stalled ∨ x.pcBusy = true ∨ size < n + k
      (v.testBit 63 = false → onlyHub s t h ∧ t.hub h = y) ∧
      (v.testBit 63 = true → bad → onlyHub s t h ∧ t.hub h = { y with pcRefused := true }) ∧
      (v.testBit 63 = true → ¬ bad → (t.hub h).pcBusy = true) ∧
      (v.testBit 63 = true → ¬ bad → x.slots = [] → x.sramErr = [] → ∃ u : State, onlyHub s u h ∧ u.hub h = { y with pcBusy := true, validHbm := (u.hub h).validHbm, validSlow := (u.hub h).validSlow } ∧
        (∀ b q, (u.hub h).valid b q = (x.valid b q && !(b == tier && decide (n ≤ q ∧ q < n + k)))) ∧
        (∀ a, let gone := sliceAddr h tier (n * 4096) ≤ a ∧ a < sliceAddr h tier (n * 4096) + k * 4096
          (gone → readByte t.mem a = 0 ∧ tget [] t.memErr a = [] ∧ tget false t.poison a = false) ∧
          (¬ gone → readByte t.mem a = readByte s.mem a ∧ tget [] t.memErr a = tget [] s.memErr a ∧ tget false t.poison a = tget false s.poison a)) ∧
        t = { u with mem := t.mem, memErr := t.memErr, poison := t.poison }))) ∧
  (∀ (n : Nat) v (s : State), n < 48 → let x := s.ltile n
    let writes := fun off (y : Tile) => ∃ t, s.writeReg (0x3F200000000 + 0x100000 * n + off) v = some t ∧ onlyTile s t (s.phys n) ∧ t.tile (s.phys n) = y
    (writes 0x00 { x with pourFlags := x.pourFlags &&& ~~~BitVec.ofNat _ v } ∧ writes 0x08 { x with mvFlags := x.mvFlags &&& ~~~BitVec.ofNat _ v } ∧
      writes 0x10 { x with thrFlags := x.thrFlags &&& ~~~BitVec.ofNat _ v } ∧
      writes 0x18 { x with cuff := { x.cuff with throttled := stays x.cuff.throttled v 0 } } ∧
      ∀ k, k < 4 → let l := tset x.traps k { tget {} x.traps k with valid := stays (tget {} x.traps k).valid v 55 }
        writes (0x60 + 8 * k) { x with traps := l }))

/-- R253, R388, R500, R501, R551 to R556: mitten is entered from a job that does not run, once the device is quiet: its ports sleep, its dies lose
power and memory stays; WAKE powers it again, and completes once every port is up; a report is signed in every mode. -/
def Obligations.SleepAndReports : Prop :=
  (∀ f (s : State), ∃ t, exec (.mitten f) s = .next t ∧ hosted f 0 (servedIn true false fun v r u =>
    let p := v.power
    if v.crown.job = .active ∨ v.crown.rstate = .stalled ∨ p.mitten = true ∨ p.entering = true ∨ p.waking = true ∨ p.quenched = true ∨
      p.quenching = true then answers 0x05 v r u
    else opensOp .mitten (fun _ w z => z = { w with power := { p with entering := true } }) v r u) s t) ∧
  (∀ s : State, let may := s.power.entering = true ∧ (s.crown.rstate = .idle ∨ s.crown.rstate = .running) ∧
      ∀ e ∈ s.hubs, e.2.ckpt = [] ∧ e.2.slots = [] ∧ ∀ p ∈ e.2.ports, p.2.tx = [] ∧ p.2.prio.held = [] ∧ p.2.data.held = [] ∧
        ∀ r ∈ p.2.rx, r.complete = true
    (¬ may → exec .mittenComplete s = .next s) ∧
    (may → ∃ w : State, exec .mittenComplete s = .next (opEnded w .mitten) ∧
      (∀ p, w.tile p = { dross := (s.tile p).dross, revision := (s.tile p).revision, selfTestOk := (s.tile p).selfTestOk }) ∧
      (∀ h, h < 8 → let x := s.hub h
        let y := w.hub h
        y.validHbm = x.validHbm ∧ y.validSlow = x.validSlow ∧ y.tags = x.tags ∧ y.mapout = x.mapout ∧ y.slot0 = x.slot0 ∧ y.slot1 = x.slot1 ∧
        y.chans = x.chans ∧ y.dross = x.dross ∧ y.tileMap = x.tileMap ∧ y.fetCursor = x.fetCursor ∧ y.fetEnable = x.fetEnable ∧
        y.lists = [] ∧ y.tokens = [] ∧ y.eps = [] ∧ y.adds = [] ∧ y.slots = [] ∧ y.cuff = {}) ∧
      (∀ h m, h < 8 → m < 2 → let p := s.port h m
        let c : Ctrl := .sleep s.crown.rankNow (BitVec.ofNat 4 (2 * h + m)) s.crown.epoch
        (p.up = false → w.port h m = p) ∧
        (p.up = true → let q := w.port h m
          q.up = false ∧ q.farAsleep = true ∧ q.ctrl = p.ctrl ++ List.replicate 8 c ∧ q.waiting = p.waiting)) ∧
      w = { s with tiles := w.tiles, hubs := w.hubs, crown := { s.crown with signals := [] }
                   power := { s.power with entering := false, mitten := true, reports := [], cuffs := [], cuffReports := [], quenchCuffs := [] } })) ∧
  (∀ f (s : State), ∃ t, exec (.wake f) s = .next t ∧ hosted f 0 (servedIn true false fun v r u =>
    if v.power.mitten = false then answers 0x05 v r u
    else opensOp .wake (fun _ w z => z = ({ w with power := { v.power with mitten := false, waking := true } } : State).trainChans) v r u) s t) ∧
  (∀ s : State, let may := s.power.waking = true ∧ s.negotiated = true ∧ ∀ h m, h < 8 → m < 2 → (s.wire h m).1 = true → (s.port h m).up = true
    let u := (s.repairAll.retrain []).mapTilesOver.loadMoulds
    (¬ may → exec .wakeComplete s = .next s) ∧
    (may → exec .wakeComplete s = .next (opEnded { u with power := { u.power with waking := false } } .wake))) ∧
  (∀ f (s : State), ∃ t, exec (.attest f) s = .next t ∧ hosted f 0 (fun v r u =>
    if f.payload.length ≠ 32 then answers 0x04 v r u
    else u = v ∧ ∃ b : List Byte, let sig := ecdsaSign (v.idKey.getD 1) (sha512 b)
      b.length = 256 ∧ (∀ x ∈ reportRows v f.payload, (b.drop x.1).take x.2.length = x.2) ∧
      r = { payload := b ++ beBytes 66 sig.1 ++ beBytes 66 sig.2 ++ Config.certificate }) s t)

/-- R476, R479, R499, R502, R503, R505, R516, R520: SERVICE ends every operation and leaves a device without dies; the flash below the device
area can then be erased, programmed and read, the pattern verified, and EXIT begins order 2. -/
def Obligations.ServiceMode : Prop :=
  (∀ f (s : State), ∃ t, exec (.service f) s = .next t ∧ hosted f 0 (fun v r u =>
    if v.crown.job = .active ∨ v.crown.job = .suspended then answers 0x05 v r u
    else if v.startup.service = true then r = {} ∧ u = v
    else r = {} ∧ u.startup.service = true ∧
      u.startup = { board := v.startup.board, service := true, done := v.startup.done.filter (fun n => decide (n ≤ 2)), forced := v.startup.forced
                    site := v.startup.site, rank := v.startup.rank, keySlot := v.startup.keySlot, header := v.startup.header
                    refusal := v.startup.refusal } ∧
      u.crown = { job := v.crown.job, nextHandle := v.crown.nextHandle, seq := v.crown.seq, lastTime := v.crown.lastTime, log := v.crown.log
                  head := v.crown.head, overwritten := v.crown.overwritten, stepLast := v.crown.stepLast, lastCode := v.crown.lastCode
                  window := v.crown.window, dross := v.crown.dross } ∧
      (v.link.up = true → u.link = (v.crown.ops.map fun o =>
        ({ type := 0x81, status := 0x0D, handle := BitVec.ofNat 32 o.1 } : DevFrame)).foldl Link.send v.link) ∧
      u.tiles = [] ∧ u.mem = [] ∧ u.memErr = [] ∧ u.poison = [] ∧ u.loaded = {} ∧
      ((v.hubs.map Prod.fst).Nodup → ∀ h, u.hub h = { repaired := (v.hub h).repaired }) ∧
      u.power.mitten = false ∧ u.power.quenched = false ∧ u.power.entering = false ∧ u.power.waking = false ∧ u.power.rails = v.power.rails ∧
      u = { v with startup := u.startup, crown := u.crown, link := u.link, tiles := [], hubs := u.hubs, mem := [], memErr := [], poison := []
                   loaded := {}, power := u.power }) s t) ∧
  (∀ f (s : State), ∃ t, exec (.erase f) s = .next t ∧ hosted f 0 (inService fun v r u =>
    let a := f.param0.toNat
    let area := if v.flash1 then 0x1C000000 else 0x0C000000
    if a % 65536 ≠ 0 ∨ area < a + 65536 then answers 0x04 v r u
    else r = {} ∧ (∀ x, tget 0xFF u.flash x = if a ≤ x ∧ x < a + 65536 then 0xFF else tget 0xFF v.flash x) ∧
      u = { v with journal := true, flash := u.flash }) s t) ∧
  (∀ f (s : State), ∃ t, exec (.program f) s = .next t ∧ hosted f 0 (inService fun v r u =>
    let a := f.param0.toNat
    let area := if v.flash1 then 0x1C000000 else 0x0C000000
    if a % 256 ≠ 0 ∨ area < a + f.payload.length then answers 0x04 v r u
    else r = {} ∧ (∀ x, tget 0xFF u.flash x =
        if a ≤ x ∧ x < a + f.payload.length then tget 0xFF v.flash x &&& lget 0 f.payload (x - a) else tget 0xFF v.flash x) ∧
      u = { v with journal := true, flash := u.flash }) s t) ∧
  (∀ f (s : State), ∃ t, exec (.read f) s = .next t ∧ hosted f 0 (inService fun v r u =>
    let a := f.param0.toNat
    let n := f.param1.toNat
    let area := if v.flash1 then 0x1C000000 else 0x0C000000
    if 65536 < n ∨ area + 0x4000000 < a + n then answers 0x04 v r u
    else u = v ∧ r = { payload := (List.range n).map fun i => if area ≤ a + i ∧ a + i < area + 65536 then
      Config.journalByte v.journal (a + i - area) else tget 0xFF v.flash (a + i) }) s t) ∧
  (∀ f (s : State), ∃ t, exec (.verify f) s = .next t ∧ hosted f 0 (inService fun v r u =>
    r = { param0 := some v.verifyCode.toNat } ∧ u = if v.verifyCode = 0 then { v with journal := false } else v) s t) ∧
  (∀ f (s : State), ∃ t, exec (.exit f) s = .next t ∧ hosted f 0 (inService fun v r u => r = {} ∧ ∃ c : Crown,
    c = { job := .none, nextHandle := v.crown.nextHandle, seq := v.crown.seq, lastTime := v.crown.lastTime, log := v.crown.log
          head := v.crown.head, overwritten := v.crown.overwritten, stepLast := v.crown.stepLast, lastCode := v.crown.lastCode
          window := v.crown.window, dross := v.crown.dross } ∧
    u = ({ v with startup := { board := v.startup.board }, crown := c } : State).boot) s t) ∧
  (∀ s : State, s.verifyCode = 0 ↔ s.imageCode = 0 ∧ ∀ x ∈ s.readHeader.sections, beNat (sha512 (s.flashBytes x.offset x.length)) = x.digest)

/-- R504: REVOKE blows the fuse of a slot only while the pattern in flash verifies under another slot that is not revoked; otherwise it fails and
changes nothing; the slot that verifies stays usable. -/
def Obligations.KeyRevocation : Prop :=
  (∀ f (s : State), s.revoked.length = 4 → ∃ t, exec (.revoke f) s = .next t ∧ hosted f 0 (inService fun v r u =>
    let n := f.param0.toNat
    if 3 < n then answers 0x04 v r u
    else if v.verifyCode = 0 ∧ v.flashNat 38 1 ≠ n then
      r = {} ∧ (∀ k, lget false u.revoked k = (lget false v.revoked k || k == n)) ∧ u.revoked.length = 4 ∧ u = { v with revoked := u.revoked }
    else answers 0x0D v r u) s t) ∧
  (∀ (s : State) n, s.revoked.length = 4 → s.verifyCode = 0 → s.flashNat 38 1 ≠ n → let m := s.flashNat 38 1
    let t : State := { s with revoked := lset s.revoked n true }
    m < 4 ∧ lget true t.revoked m = false ∧ t.verifyCode = 0)

/-- R232: a read in a plate whose bit is 0 returns zeros; no code is checked, nothing is counted, and no upset of the device is seen. -/
def Obligations.InvalidPlates : Prop :=
  (∀ (s : State) a, s.plateValid a = false → s.readSector a = (List.replicate 32 0, 0, false)) ∧
  (∀ (s : State) a n, (∀ b, a ≤ b → b < a + n → s.plateValid b = false) →
    s.readMem a n = (some (List.replicate n 0), { fixed := 0, bad := [], twoSym := [] })) ∧
  (∀ (s : State) (hits : SectorHits), (∀ x ∈ hits, s.plateStored (x.1 / 32 * 32) = false) → s.hitSectors hits = s)

/-- A step takes the command at the front of the queue and runs it on the state with the queue's rest; on an empty queue a powered crown counts
one cycle of REF_CLK_100 (R527; that an empty queue is such a cycle is the model's choice). No row of the table spells a command in bits. -/
def Obligations.StepRunsFrontCommand : Prop :=
  (∀ c (s : State), step { s with pending := c :: s.pending } = exec c s) ∧
  (∀ c rest (s : State), s.pending = c :: rest → step s = exec c { s with pending := rest }) ∧
  (∀ s : State, s.pending = [] → s.crownOn = false → step s = .next s) ∧
  (∀ s : State, s.pending = [] → s.crownOn = true → step s = .next { s with time := { s.time with
    ticks := s.time.ticks + 1
    counter := (((s.time.counter : Int) + 10 * 65536 + s.time.corr) % ((2 ^ 80 : Nat) : Int)).toNat } }) ∧
  (∀ nbits w (s : State), decodeTableWord nbits w = none ∧ s.withFetchWord nbits w = s)

/-- R10, R477, R485, R534, R563: reset. The state is sound; nothing is powered; both pins are low; every register of every die reads the reset
value of its table. (The revoke fuses are whole: log entry 77.) -/
def Obligations.ResetState : Prop :=
  State.Sound State.reset ∧ State.reset.pending = [] ∧ State.reset.crown.job = .none ∧ State.reset.crown.rstate = .idle ∧
  State.reset.power.rails = .off ∧ State.reset.rstN = false ∧ State.reset.pwrOk = false ∧ State.reset.crownOn = false ∧
  State.reset.mem = [] ∧ State.reset.hubs = [] ∧ State.reset.tiles = [] ∧ State.reset.startup.done = [] ∧ State.reset.link.up = false ∧
  (∀ n, n < 4 → lget false State.reset.revoked n = false) ∧
  ∀ a v, State.reset.readReg a = .value v → ∃ r, regAt a = some r ∧ (v = resetWord r ∨ ∃ h c, r = .hub h (0x80 + 8 * c) ∧ hasChan h c = false ∧ v = 0)

/-- R445, R485, R504, R511: every command completes in every state: a fault is the package's own state, never a stop of the block; and whatever
it does, it neither takes a command from the queue nor adds one, writes no key slot, and mends no blown revoke fuse. -/
def Obligations.CommandsComplete : Prop := ∀ c (s : State), ∃ t, exec c s = .next t ∧ State.Follows s t

/-- R222, R230 to R233, R237, R243, R485, R499, R504: every step keeps the state sound: memory and flash in canonical form, an invalid plate without
stored bytes, marks or poison, four fuses, and the runs of every engine numbered below its count. -/
def Obligations.StepsKeepSound : Prop := ∀ s t : State, State.Sound s → step s = .next t → State.Sound t
end

