-- ==== Sys2Proof/Laws/Table.lean ====
section
/-! SUPPORT. Laws of sparse tables: read after write, and that every operation keeps the canonical form. -/
namespace Sys2Proof.Machine

variable {α : Type}

/-- Every key of a table lies above a bound, and keys rise. -/
theorem tsortedFrom_some (l : Nat) (t : Tbl α) :
    tsortedFrom (some l) t = true ↔ tsortedFrom none t = true ∧ ∀ e ∈ t, l < e.1 := by
  induction t generalizing l with
  | nil => simp [tsortedFrom]
  | cons e t ih =>
    obtain ⟨k, v⟩ := e
    simp only [tsortedFrom, Bool.true_and, Bool.and_eq_true, decide_eq_true_eq, List.mem_cons, forall_eq_or_imp]
    constructor
    · rintro ⟨h, g⟩
      exact ⟨g, h, fun e he => lt_trans h (((ih k).1 g).2 e he)⟩
    · rintro ⟨g, h, _⟩
      exact ⟨h, g⟩

/-- A sorted table's tail is sorted, and its head's key lies below every other. -/
theorem tsorted_cons (k : Nat) (v : α) (t : Tbl α) :
    tsortedFrom none ((k, v) :: t) = true ↔ tsortedFrom none t = true ∧ ∀ e ∈ t, k < e.1 := by
  simp only [tsortedFrom, Bool.true_and]
  exact tsortedFrom_some k t

/-- Any part of a sorted table is sorted. -/
theorem tsorted_filter (p : Nat × α → Bool) (t : Tbl α) (h : tsortedFrom none t = true) :
    tsortedFrom none (t.filter p) = true := by
  induction t with
  | nil => rfl
  | cons e t ih =>
    obtain ⟨k, v⟩ := e
    obtain ⟨g, b⟩ := (tsorted_cons k v t).1 h
    rw [List.filter_cons]
    split
    · exact (tsorted_cons k v _).2 ⟨ih g, fun e he => b e (List.mem_of_mem_filter he)⟩
    · exact ih g

/-- What an insertion puts into a table. -/
theorem mem_tins (t : Tbl α) (k : Nat) (v : α) (e : Nat × α) : e ∈ tins t k v ↔ e = (k, v) ∨ e ∈ t := by
  induction t with
  | nil => simp [tins]
  | cons x t ih =>
    obtain ⟨j, w⟩ := x
    simp only [tins]
    split
    · simp
    · simp only [List.mem_cons, ih]; tauto

/-- Inserting a key that is not listed keeps a table sorted. -/
theorem tsorted_tins (t : Tbl α) (k : Nat) (v : α) (h : tsortedFrom none t = true) (n : ∀ e ∈ t, e.1 ≠ k) :
    tsortedFrom none (tins t k v) = true := by
  induction t with
  | nil => rfl
  | cons x t ih =>
    obtain ⟨j, w⟩ := x
    obtain ⟨g, b⟩ := (tsorted_cons j w t).1 h
    simp only [tins]
    split
    · rename_i lt
      refine (tsorted_cons k v _).2 ⟨h, ?_⟩
      intro e he
      rcases List.mem_cons.1 he with rfl | he
      · exact lt
      · exact lt_trans lt (b e he)
    · rename_i nlt
      have hj : j ≠ k := n (j, w) (by simp)
      refine (tsorted_cons j w _).2 ⟨ih g fun e he => n e (by simp [he]), ?_⟩
      intro e he
      rcases (mem_tins t k v e).1 he with rfl | he
      · simp only; omega
      · exact b e he

/-- Storing a value keeps a table sorted. -/
theorem tsorted_tset (t : Tbl α) (k : Nat) (v : α) (h : tsortedFrom none t = true) : tsortedFrom none (tset t k v) = true :=
  tsorted_tins _ _ _ (tsorted_filter _ _ h) fun e he => by simpa using (List.mem_filter.1 he).2

variable [DecidableEq α]

/-- The canonical form: keys rise and no value is the default. -/
theorem tcanon_iff (d : α) (t : Tbl α) : tcanon d t = true ↔ tsortedFrom none t = true ∧ ∀ e ∈ t, e.2 ≠ d := by
  simp [tcanon, List.all_eq_true]

/-- Any part of a canonical table is canonical. -/
theorem tcanon_filter (d : α) (p : Nat × α → Bool) (t : Tbl α) (h : tcanon d t = true) : tcanon d (t.filter p) = true := by
  rw [tcanon_iff] at *
  exact ⟨tsorted_filter p t h.1, fun e he => h.2 e (List.mem_of_mem_filter he)⟩

/-- Dropping a number keeps the canonical form. -/
theorem tcanon_terase (d : α) (t : Tbl α) (k : Nat) (h : tcanon d t = true) : tcanon d (terase t k) = true :=
  tcanon_filter d _ t h

/-- Dropping a range keeps the canonical form. -/
theorem tcanon_dropRange (d : α) (t : Tbl α) (lo len : Nat) (h : tcanon d t = true) : tcanon d (dropRange t lo len) = true :=
  tcanon_filter d _ t h

/-- Storing a value keeps the canonical form. -/
theorem tcanon_tput (d : α) (t : Tbl α) (k : Nat) (v : α) (h : tcanon d t = true) : tcanon d (tput d t k v) = true := by
  unfold tput
  split
  · exact tcanon_terase d t k h
  · rename_i ne
    rw [tcanon_iff] at *
    refine ⟨tsorted_tset t k v h.1, fun e he => ?_⟩
    rcases (mem_tins _ k v e).1 he with rfl | he
    · exact ne
    · exact h.2 e (List.mem_of_mem_filter he)

omit [DecidableEq α]

/-- Reading where an insertion stored. -/
theorem tget_tins_same (d : α) (t : Tbl α) (k : Nat) (v : α) (n : ∀ e ∈ t, e.1 ≠ k) : tget d (tins t k v) k = v := by
  induction t with
  | nil => simp [tins, tget]
  | cons x t ih =>
    obtain ⟨j, w⟩ := x
    have hj : j ≠ k := n (j, w) (by simp)
    simp only [tins]
    split
    · simp [tget]
    · simp [tget, hj, ih fun e he => n e (by simp [he])]

/-- Reading elsewhere. -/
theorem tget_tins_other (d : α) (t : Tbl α) (k j : Nat) (v : α) (h : j ≠ k) : tget d (tins t k v) j = tget d t j := by
  induction t with
  | nil => simp [tins, tget, Ne.symm h]
  | cons x t ih =>
    obtain ⟨i, w⟩ := x
    simp only [tins]
    split
    · simp [tget, Ne.symm h]
    · simp only [tget, ih]

/-- Reading a number that was dropped. -/
theorem tget_terase_same (d : α) (t : Tbl α) (k : Nat) : tget d (terase t k) k = d := by
  induction t with
  | nil => rfl
  | cons x t ih =>
    obtain ⟨i, w⟩ := x
    simp only [terase, List.filter_cons] at *
    split
    · rename_i h
      have : i ≠ k := by simpa using h
      simp [tget, this, ih]
    · exact ih

/-- Reading another number than the one dropped. -/
theorem tget_terase_other (d : α) (t : Tbl α) (k j : Nat) (h : j ≠ k) : tget d (terase t k) j = tget d t j := by
  induction t with
  | nil => rfl
  | cons x t ih =>
    obtain ⟨i, w⟩ := x
    simp only [terase, List.filter_cons] at *
    split
    · simp only [tget, ih]
    · rename_i g
      have : i = k := by simpa using g
      subst this
      simp [tget, Ne.symm h, ih]

/-- Read after write, the same number. -/
@[simp] theorem tget_tset_same (d : α) (t : Tbl α) (k : Nat) (v : α) : tget d (tset t k v) k = v :=
  tget_tins_same d _ k v fun e he => by simpa using (List.mem_filter.1 he).2

/-- Read after write, another number. -/
theorem tget_tset_other (d : α) (t : Tbl α) (k j : Nat) (v : α) (h : j ≠ k) : tget d (tset t k v) j = tget d t j := by
  rw [tset, tget_tins_other d _ k j v h, tget_terase_other d t k j h]

/-- Read after a canonical write, the same number. -/
@[simp] theorem tget_tput_same [DecidableEq α] (d : α) (t : Tbl α) (k : Nat) (v : α) : tget d (tput d t k v) k = v := by
  unfold tput
  split
  · rename_i h; rw [tget_terase_same, h]
  · exact tget_tset_same d t k v

/-- Read after a canonical write, another number. -/
theorem tget_tput_other [DecidableEq α] (d : α) (t : Tbl α) (k j : Nat) (v : α) (h : j ≠ k) :
    tget d (tput d t k v) j = tget d t j := by
  unfold tput
  split
  · exact tget_terase_other d t k j h
  · exact tget_tset_other d t k j v h

/-- Reading after a range has been dropped. -/
theorem tget_dropRange (d : α) (t : Tbl α) (lo len k : Nat) :
    tget d (dropRange t lo len) k = if lo ≤ k ∧ k < lo + len then d else tget d t k := by
  induction t with
  | nil => simp [dropRange, tget]
  | cons x t ih =>
    obtain ⟨i, w⟩ := x
    simp only [dropRange, List.filter_cons] at *
    by_cases hi : lo ≤ i ∧ i < lo + len
    · simp only [hi, and_self, decide_true, Bool.not_true, Bool.false_eq_true, if_false, ih, tget]
      by_cases hk : lo ≤ k ∧ k < lo + len
      · simp [hk]
      · have : i ≠ k := fun e => hk (e ▸ hi)
        simp [hk, this]
    · simp only [hi, decide_false, Bool.not_false, if_true, tget, ih]
      split
      · rename_i e; subst e; simp [hi]
      · rfl

end Sys2Proof.Machine
end

