-- ==== Sys2Proof/Laws/Memory.lean ====
section
/-! SUPPORT. Laws of memory: read after write, writes elsewhere, and that every operation keeps the canonical form. -/
namespace Sys2Proof.Machine

/-- Reset memory is canonical. -/
theorem Memory.wf_nil : Memory.wf [] = true := rfl

/-- A byte write keeps the canonical form. -/
theorem Memory.wf_writeByte (m : List Host.Cell) (a : Nat) (b : Byte) (h : Memory.wf m = true) :
    Memory.wf (writeByte m a b) = true := tcanon_tput 0 m a b h

/-- Reading the byte just written. -/
@[simp] theorem readByte_writeByte_same (m : List Host.Cell) (a : Nat) (b : Byte) : readByte (writeByte m a b) a = b :=
  tget_tput_same 0 m a b

/-- Reading another byte. -/
theorem readByte_writeByte_other (m : List Host.Cell) (a c : Nat) (b : Byte) (h : c ≠ a) :
    readByte (writeByte m a b) c = readByte m c := tget_tput_other 0 m a c b h

/-- A write of bytes keeps the canonical form. -/
theorem Memory.wf_writeBytes (m : List Host.Cell) (a : Nat) (l : List Byte) (h : Memory.wf m = true) :
    Memory.wf (writeBytes m a l) = true := by
  induction l generalizing m a with
  | nil => exact h
  | cons b t ih => exact ih _ _ (Memory.wf_writeByte m a b h)

/-- A write of bytes leaves every other byte. -/
theorem readByte_writeBytes_other (m : List Host.Cell) (a c : Nat) (l : List Byte) (h : c < a ∨ a + l.length ≤ c) :
    readByte (writeBytes m a l) c = readByte m c := by
  induction l generalizing m a with
  | nil => rfl
  | cons b t ih =>
    simp only [List.length_cons] at h
    rw [writeBytes, ih _ _ (by omega), readByte_writeByte_other _ _ _ _ (by omega)]

/-- Reading back bytes just written. -/
theorem readBytes_writeBytes (m : List Host.Cell) (a : Nat) (l : List Byte) : readBytes (writeBytes m a l) a l.length = l := by
  induction l generalizing m a with
  | nil => rfl
  | cons b t ih =>
    rw [List.length_cons, readBytes, writeBytes, ih]
    rw [readByte_writeBytes_other _ _ _ _ (by omega), readByte_writeByte_same]

/-- A masked write keeps the canonical form. -/
theorem Memory.wf_writeMasked (m : List Host.Cell) (a : Nat) (l : List (Option Byte)) (h : Memory.wf m = true) :
    Memory.wf (writeMasked m a l) = true := by
  induction l generalizing m a with
  | nil => exact h
  | cons b t ih =>
    cases b with
    | none => exact ih _ _ h
    | some b => exact ih _ _ (Memory.wf_writeByte m a b h)

/-- Dropping a range keeps the canonical form. -/
theorem Memory.wf_dropRange (m : List Host.Cell) (lo len : Nat) (h : Memory.wf m = true) :
    Memory.wf (dropRange m lo len) = true := tcanon_dropRange 0 m lo len h

/-- Bytes of a cleared range read zero, every other byte as before (R231, R232). -/
theorem readByte_dropRange (m : List Host.Cell) (lo len a : Nat) :
    readByte (dropRange m lo len) a = if lo ≤ a ∧ a < lo + len then 0 else readByte m a := tget_dropRange 0 m lo len a

end Sys2Proof.Machine
end

