-- ==== Sys2Proof/WellFormed.lean ====
section
/-! DEFINITION. Which commands the outside can give: the bounds of their operands that the types do not carry. `exec` is
total on the others too; nothing is claimed of them. -/
namespace Sys2Proof

/-- Flipped bits lie in stored words that exist (R237: (72,64) words; 16,384 instruction words, R135; 8 MiB of local
store, R145; 16,384 latches of 22 bits, R68). -/
def Upsets.wf (u : Upsets) : Bool :=
  (u.istore.all fun x => decide (x.1 < 16384 ∧ x.2 < 72)) &&
  (u.ls.all fun x => decide (x.1 < 1048576 ∧ x.2 < 72)) &&
  (u.latch.all fun x => decide (x.1 < 16384 ∧ x.2 < 22))

/-- Flipped bits of MV latches lie in the two sets of eight columns of 16,384 latches (R116). -/
def MvAt.wf (m : MvAt) : Bool :=
  m.upsets.wf && m.mvLatch.all fun x => decide (x.1 < 2 ∧ x.2.1 < 8 ∧ x.2.2.1 < 16384 ∧ x.2.2.2 < 22)

/-- Symbol errors lie at sectors (32-byte aligned) and in their 36 symbols (R238), flipped bits in (72,64) words (R237). -/
def hitsWf (h : Hits) : Bool :=
  (h.sectors.all fun x => decide (x.1 % 32 = 0 ∧ x.2.1 < 36)) && h.sram.all fun x => decide (x.2.2 < 72)

/-- A frame carries at most 65,536 payload bytes (R510: LEN). -/
def Frame.wf (f : Frame) : Bool := decide (f.payload.length ≤ 65536)

/-- A flit's body holds at most 4,096 bytes (R384: LEN is the count less 1 in 12 bits). -/
def Flit.wf (f : Flit) : Bool := decide (f.body.length ≤ 4096)

/-- Hub channels are 0 to 13 and groups of a channel are numbered from 0 (R417). -/
def groupsWf (g : GroupFails) : Bool := g.all fun x => decide (x.1 < 8 ∧ x.2.1 < 14)

/-- The well-formed commands. -/
def Instr.wf : Instr → Bool
  | .start f | .suspend f | .resume f | .cancel f | .switchMapping f | .exportCkpt f | .importCkpt f | .ckptData f
  | .replayStep f | .readReg f | .writeReg f | .hubPlateClearGo f | .drossClearClass f | .drossClearAll f | .logClear f
  | .timeNowRead f | .attest f | .mitten f | .wake f | .service f | .feedManifest f | .feedSegment f | .erase f
  | .program f | .read f | .verify f | .revoke f | .exit f | .badOpcode _ f => f.wf
  | .exportChunk _ | .replayDone | .hubPlateClearDone _ | .mittenComplete | .wakeComplete | .yhlLinkUp _ _
  | .yhlLinkDown _ => true
  | .vadd i | .vsub i | .vmul i | .vfma i | .vmin i | .vmax i | .vabs i | .vneg i | .vcmp i | .vsel i | .vmov i | .iadd i
  | .isub i | .imul i | .iand i | .ior i | .ixor i | .ishl i | .ishr i | .isar i | .imin i | .imax i | .icmp i | .vlane i
  | .sadd i | .ssub i | .smul i | .sand i | .sor i | .sxor i | .sshl i | .sshr i | .ssar i | .smovi i | .slui i | .scmp i
  | .pand i | .por i | .pxor i | .pnot i | .pset i | .pmov i | .cvt i | .cvtsr i | .mxscale i | .exp2 i | .log2 i | .rcp i
  | .rsq i | .tanh i | .sigm i | .erf i | .drelu i | .dlrelu i | .dsigm i | .dtanh i | .dexp i | .dsmax i | .hsum i
  | .hmax i | .hmin i | .hdot i | .lld i | .lst i | .lgath i | .lscat i | .pld i | .pst i | .mld i | .mst i | .gath i
  | .scat i | .scadd i | .skick i | .psetn i | .wait i | .signal i | .bar i | .draw i | .vdraw16 i | .vdraw32 i | .dmask i
  | .br i | .brp i | .loop i | .halt i | .trap i | .illegalOpcode i => i.upsets.wf
  | .launch c | .load c | .passF c | .passD c | .passW c | .edgeDrain c | .edgePreload c | .siteDrain c | .sitePreload c
  | .fillerPour c | .pourEnd c | .prologueEnd c | .launchComplete c _ => c.upsets.wf
  | .tokenSignal _ | .repeatBegin _ | .repeatEnd _ => true
  | .vload m | .runN m | .runT m | .accDrain m | .accPreload m => m.wf
  | .runDesc e | .kickedRun e | .descRunComplete e _ => e.upsets.wf
  | .requestAccept _ | .memoryResponse _ _ => true
  | .sorterServe _ _ h | .fettleRead _ h | .fence _ h => hitsWf h
  | .plateClear _ | .tier _ | .treeNode _ | .nodeElement _ _ | .backupChunk _ _ _ _ | .update _ | .updateElement _ _
  | .normDelivery _ | .ladle _ | .portSend _ | .portRecv _ | .ckptSend _ | .digest _ _ _ => true
  | .stepOpen | .stepDeadline | .voteSend | .vote _ _ | .outcome _ _ | .relabelCopyDone _ | .phase _ _
  | .reshardPhaseDone _ _ => true
  | .faultReport _ | .faultNotice _ _ | .abortDeferTimeout | .localAbortDone => true
  | .restartPrepared g => groupsWf g
  | .ready _ _ | .readyRetryTimeout | .leaderWindowExpiry | .startWindowExpiry | .subst _ _ | .go _ _ | .restoreDone
  | .done _ _ | .openJob _ | .stall _ _ => true
  | .laneLock _ _ _ | .ident _ _ | .measure _ _ | .linkupTimeout _ | .laneLoss _ _ _ | .sleep _ _ _ _
  | .sleepRetryTimer _ => true
  | .dataFlit _ _ f | .idle _ f => f.wf
  | .linkReplay _ _ _ | .replayGapTimeout _ _ | .linkAckTimeout _ _ | .credit _ _ _ | .creditReportTimer _ _
  | .refuse _ _ _ | .linkResume _ _ _ => true
  | .timeSyncTimer | .timeSync _ _ | .timeReply _ _ _ | .sync _ | .followUp _ | .delayResp _ | .announce _ _
  | .timeSourceLoss | .ppsEdge _ | .ppsLossTimeout | .ppsOutSecond | .ppsOutPulseEnd => true
  | .d2dParityError _ _ _ _ | .d2dAckTimeout _ _ _ _ | .spareGroupError _ _ _ _ | .ver _ _ _ | .budgetInterval _ _
  | .budget _ | .report _ | .quenchCuff _ | .railControlTick _ _ _ | .budgetStaleTimeout _ | .inputSample _ _
  | .rideThroughExpiry | .overvoltageExpiry | .lugOvercurrent _ | .junctionTrip _ _ | .quenchHubsDone | .quenchRecovery
  | .thermAlert _ | .pwrOkRise | .pwrOkFall | .inputChargeDone | .rstNAssert => true
  | .rstNRelease b => match b.eeprom with | none => true | some e => decide (e.length = 16)
  | .selfTestDone r => groupsWf r.groups && decide (r.tileRev.length ≤ 56 ∧ r.hubRev.length ≤ 8)
  | .memoryTrainDone _ | .mouldLoad | .startupReadySend | .eventRecord _ => true

end Sys2Proof
end

