-- ==== Sys2Proof/Laws/PerInstr.lean ====
section
/-! SUPPORT. Per-command laws of the syntax: what a well-formed command's host frame can hold. -/

namespace Sys2Proof

/-- The host frame a command carries, if any. -/
def Instr.frame? : Instr → Option Frame
  | .start f => some f
  | .suspend f => some f
  | .resume f => some f
  | .cancel f => some f
  | .switchMapping f => some f
  | .exportCkpt f => some f
  | .importCkpt f => some f
  | .ckptData f => some f
  | .replayStep f => some f
  | .readReg f => some f
  | .writeReg f => some f
  | .hubPlateClearGo f => some f
  | .drossClearClass f => some f
  | .drossClearAll f => some f
  | .logClear f => some f
  | .timeNowRead f => some f
  | .attest f => some f
  | .mitten f => some f
  | .wake f => some f
  | .service f => some f
  | .feedManifest f => some f
  | .feedSegment f => some f
  | .erase f => some f
  | .program f => some f
  | .read f => some f
  | .verify f => some f
  | .revoke f => some f
  | .exit f => some f
  | .badOpcode _ f => some f
  | .exportChunk _ | .replayDone | .hubPlateClearDone _ | .mittenComplete | .wakeComplete | .yhlLinkUp _ _ 
  | .yhlLinkDown _ | .vadd _ | .vsub _ | .vmul _ | .vfma _ | .vmin _ | .vmax _ | .vabs _ | .vneg _ | .vcmp _ 
  | .vsel _ | .vmov _ | .iadd _ | .isub _ | .imul _ | .iand _ | .ior _ | .ixor _ | .ishl _ | .ishr _ | .isar _ 
  | .imin _ | .imax _ | .icmp _ | .vlane _ | .sadd _ | .ssub _ | .smul _ | .sand _ | .sor _ | .sxor _ | .sshl _ 
  | .sshr _ | .ssar _ | .smovi _ | .slui _ | .scmp _ | .pand _ | .por _ | .pxor _ | .pnot _ | .pset _ | .pmov _ 
  | .cvt _ | .cvtsr _ | .mxscale _ | .exp2 _ | .log2 _ | .rcp _ | .rsq _ | .tanh _ | .sigm _ | .erf _ | .drelu _ 
  | .dlrelu _ | .dsigm _ | .dtanh _ | .dexp _ | .dsmax _ | .hsum _ | .hmax _ | .hmin _ | .hdot _ | .lld _ | .lst _ 
  | .lgath _ | .lscat _ | .pld _ | .pst _ | .mld _ | .mst _ | .gath _ | .scat _ | .scadd _ | .skick _ | .psetn _ 
  | .wait _ | .signal _ | .bar _ | .draw _ | .vdraw16 _ | .vdraw32 _ | .dmask _ | .br _ | .brp _ | .loop _ | .halt _ 
  | .trap _ | .launch _ | .launchComplete _ _ | .tokenSignal _ | .repeatBegin _ | .repeatEnd _ | .load _ | .passF _ 
  | .passD _ | .passW _ | .edgeDrain _ | .edgePreload _ | .siteDrain _ | .sitePreload _ | .fillerPour _ | .pourEnd _ 
  | .prologueEnd _ | .vload _ | .runN _ | .runT _ | .accDrain _ | .accPreload _ | .runDesc _ | .kickedRun _ 
  | .descRunComplete _ _ | .requestAccept _ | .sorterServe _ _ _ | .memoryResponse _ _ | .fettleRead _ _ | .fence _ _ 
  | .plateClear _ | .tier _ | .treeNode _ | .nodeElement _ _ | .backupChunk _ _ _ _ | .update _ | .updateElement _ _ 
  | .normDelivery _ | .ladle _ | .portSend _ | .portRecv _ | .ckptSend _ | .digest _ _ _ | .stepOpen | .stepDeadline 
  | .voteSend | .vote _ _ | .outcome _ _ | .relabelCopyDone _ | .phase _ _ | .reshardPhaseDone _ _ | .faultReport _ 
  | .faultNotice _ _ | .abortDeferTimeout | .localAbortDone | .restartPrepared _ | .ready _ _ | .readyRetryTimeout 
  | .leaderWindowExpiry | .startWindowExpiry | .subst _ _ | .go _ _ | .restoreDone | .done _ _ | .openJob _ 
  | .stall _ _ | .laneLock _ _ _ | .ident _ _ | .measure _ _ | .linkupTimeout _ | .laneLoss _ _ _ | .sleep _ _ _ _ 
  | .sleepRetryTimer _ | .dataFlit _ _ _ | .idle _ _ | .linkReplay _ _ _ | .replayGapTimeout _ _ 
  | .linkAckTimeout _ _ | .credit _ _ _ | .creditReportTimer _ _ | .refuse _ _ _ | .linkResume _ _ _ | .timeSyncTimer 
  | .timeSync _ _ | .timeReply _ _ _ | .sync _ | .followUp _ | .delayResp _ | .announce _ _ | .timeSourceLoss 
  | .ppsEdge _ | .ppsLossTimeout | .ppsOutSecond | .ppsOutPulseEnd | .d2dParityError _ _ _ _ | .d2dAckTimeout _ _ _ _ 
  | .spareGroupError _ _ _ _ | .ver _ _ _ | .budgetInterval _ _ | .budget _ | .report _ | .quenchCuff _ 
  | .railControlTick _ _ _ | .budgetStaleTimeout _ | .inputSample _ _ | .rideThroughExpiry | .overvoltageExpiry 
  | .lugOvercurrent _ | .junctionTrip _ _ | .quenchHubsDone | .quenchRecovery | .thermAlert _ | .pwrOkRise 
  | .pwrOkFall | .inputChargeDone | .rstNAssert | .rstNRelease _ | .selfTestDone _ | .memoryTrainDone _ | .mouldLoad 
  | .startupReadySend | .illegalOpcode _ | .eventRecord _ => none

/-- A well-formed command's frame carries at most 65,536 payload bytes (R510). -/
def Laws.Operands.Statement (i : Instr) : Prop :=
  i.wf = true → ∀ f, i.frame? = some f → f.payload.length ≤ 65536

theorem Laws.Operands.start (f : Frame) : Laws.Operands.Statement (.start f) := by
  intro h g e; cases e; exact of_decide_eq_true h
theorem Laws.Operands.suspend (f : Frame) : Laws.Operands.Statement (.suspend f) := by
  intro h g e; cases e; exact of_decide_eq_true h
theorem Laws.Operands.resume (f : Frame) : Laws.Operands.Statement (.resume f) := by
  intro h g e; cases e; exact of_decide_eq_true h
theorem Laws.Operands.cancel (f : Frame) : Laws.Operands.Statement (.cancel f) := by
  intro h g e; cases e; exact of_decide_eq_true h
theorem Laws.Operands.switchMapping (f : Frame) : Laws.Operands.Statement (.switchMapping f) := by
  intro h g e; cases e; exact of_decide_eq_true h
theorem Laws.Operands.exportCkpt (f : Frame) : Laws.Operands.Statement (.exportCkpt f) := by
  intro h g e; cases e; exact of_decide_eq_true h
theorem Laws.Operands.exportChunk (handle : W32) : Laws.Operands.Statement (.exportChunk handle) := by
  intro _ _ e; cases e
theorem Laws.Operands.importCkpt (f : Frame) : Laws.Operands.Statement (.importCkpt f) := by
  intro h g e; cases e; exact of_decide_eq_true h
theorem Laws.Operands.ckptData (f : Frame) : Laws.Operands.Statement (.ckptData f) := by
  intro h g e; cases e; exact of_decide_eq_true h
theorem Laws.Operands.replayStep (f : Frame) : Laws.Operands.Statement (.replayStep f) := by
  intro h g e; cases e; exact of_decide_eq_true h
theorem Laws.Operands.replayDone : Laws.Operands.Statement .replayDone := by
  intro _ _ e; cases e
theorem Laws.Operands.readReg (f : Frame) : Laws.Operands.Statement (.readReg f) := by
  intro h g e; cases e; exact of_decide_eq_true h
theorem Laws.Operands.writeReg (f : Frame) : Laws.Operands.Statement (.writeReg f) := by
  intro h g e; cases e; exact of_decide_eq_true h
theorem Laws.Operands.hubPlateClearGo (f : Frame) : Laws.Operands.Statement (.hubPlateClearGo f) := by
  intro h g e; cases e; exact of_decide_eq_true h
theorem Laws.Operands.hubPlateClearDone (h : Fin 8) : Laws.Operands.Statement (.hubPlateClearDone h) := by
  intro _ _ e; cases e
theorem Laws.Operands.drossClearClass (f : Frame) : Laws.Operands.Statement (.drossClearClass f) := by
  intro h g e; cases e; exact of_decide_eq_true h
theorem Laws.Operands.drossClearAll (f : Frame) : Laws.Operands.Statement (.drossClearAll f) := by
  intro h g e; cases e; exact of_decide_eq_true h
theorem Laws.Operands.logClear (f : Frame) : Laws.Operands.Statement (.logClear f) := by
  intro h g e; cases e; exact of_decide_eq_true h
theorem Laws.Operands.timeNowRead (f : Frame) : Laws.Operands.Statement (.timeNowRead f) := by
  intro h g e; cases e; exact of_decide_eq_true h
theorem Laws.Operands.attest (f : Frame) : Laws.Operands.Statement (.attest f) := by
  intro h g e; cases e; exact of_decide_eq_true h
theorem Laws.Operands.mitten (f : Frame) : Laws.Operands.Statement (.mitten f) := by
  intro h g e; cases e; exact of_decide_eq_true h
theorem Laws.Operands.mittenComplete : Laws.Operands.Statement .mittenComplete := by
  intro _ _ e; cases e
theorem Laws.Operands.wake (f : Frame) : Laws.Operands.Statement (.wake f) := by
  intro h g e; cases e; exact of_decide_eq_true h
theorem Laws.Operands.wakeComplete : Laws.Operands.Statement .wakeComplete := by
  intro _ _ e; cases e
theorem Laws.Operands.service (f : Frame) : Laws.Operands.Statement (.service f) := by
  intro h g e; cases e; exact of_decide_eq_true h
theorem Laws.Operands.feedManifest (f : Frame) : Laws.Operands.Statement (.feedManifest f) := by
  intro h g e; cases e; exact of_decide_eq_true h
theorem Laws.Operands.feedSegment (f : Frame) : Laws.Operands.Statement (.feedSegment f) := by
  intro h g e; cases e; exact of_decide_eq_true h
theorem Laws.Operands.erase (f : Frame) : Laws.Operands.Statement (.erase f) := by
  intro h g e; cases e; exact of_decide_eq_true h
theorem Laws.Operands.program (f : Frame) : Laws.Operands.Statement (.program f) := by
  intro h g e; cases e; exact of_decide_eq_true h
theorem Laws.Operands.read (f : Frame) : Laws.Operands.Statement (.read f) := by
  intro h g e; cases e; exact of_decide_eq_true h
theorem Laws.Operands.verify (f : Frame) : Laws.Operands.Statement (.verify f) := by
  intro h g e; cases e; exact of_decide_eq_true h
theorem Laws.Operands.revoke (f : Frame) : Laws.Operands.Statement (.revoke f) := by
  intro h g e; cases e; exact of_decide_eq_true h
theorem Laws.Operands.exit (f : Frame) : Laws.Operands.Statement (.exit f) := by
  intro h g e; cases e; exact of_decide_eq_true h
theorem Laws.Operands.yhlLinkUp (version : Byte) (flightNs : Nat) : Laws.Operands.Statement (.yhlLinkUp version flightNs) := by
  intro _ _ e; cases e
theorem Laws.Operands.yhlLinkDown (unacked : Nat) : Laws.Operands.Statement (.yhlLinkDown unacked) := by
  intro _ _ e; cases e
theorem Laws.Operands.vadd (i : Issue) : Laws.Operands.Statement (.vadd i) := by
  intro _ _ e; cases e
theorem Laws.Operands.vsub (i : Issue) : Laws.Operands.Statement (.vsub i) := by
  intro _ _ e; cases e
theorem Laws.Operands.vmul (i : Issue) : Laws.Operands.Statement (.vmul i) := by
  intro _ _ e; cases e
theorem Laws.Operands.vfma (i : Issue) : Laws.Operands.Statement (.vfma i) := by
  intro _ _ e; cases e
theorem Laws.Operands.vmin (i : Issue) : Laws.Operands.Statement (.vmin i) := by
  intro _ _ e; cases e
theorem Laws.Operands.vmax (i : Issue) : Laws.Operands.Statement (.vmax i) := by
  intro _ _ e; cases e
theorem Laws.Operands.vabs (i : Issue) : Laws.Operands.Statement (.vabs i) := by
  intro _ _ e; cases e
theorem Laws.Operands.vneg (i : Issue) : Laws.Operands.Statement (.vneg i) := by
  intro _ _ e; cases e
theorem Laws.Operands.vcmp (i : Issue) : Laws.Operands.Statement (.vcmp i) := by
  intro _ _ e; cases e
theorem Laws.Operands.vsel (i : Issue) : Laws.Operands.Statement (.vsel i) := by
  intro _ _ e; cases e
theorem Laws.Operands.vmov (i : Issue) : Laws.Operands.Statement (.vmov i) := by
  intro _ _ e; cases e
theorem Laws.Operands.iadd (i : Issue) : Laws.Operands.Statement (.iadd i) := by
  intro _ _ e; cases e
theorem Laws.Operands.isub (i : Issue) : Laws.Operands.Statement (.isub i) := by
  intro _ _ e; cases e
theorem Laws.Operands.imul (i : Issue) : Laws.Operands.Statement (.imul i) := by
  intro _ _ e; cases e
theorem Laws.Operands.iand (i : Issue) : Laws.Operands.Statement (.iand i) := by
  intro _ _ e; cases e
theorem Laws.Operands.ior (i : Issue) : Laws.Operands.Statement (.ior i) := by
  intro _ _ e; cases e
theorem Laws.Operands.ixor (i : Issue) : Laws.Operands.Statement (.ixor i) := by
  intro _ _ e; cases e
theorem Laws.Operands.ishl (i : Issue) : Laws.Operands.Statement (.ishl i) := by
  intro _ _ e; cases e
theorem Laws.Operands.ishr (i : Issue) : Laws.Operands.Statement (.ishr i) := by
  intro _ _ e; cases e
theorem Laws.Operands.isar (i : Issue) : Laws.Operands.Statement (.isar i) := by
  intro _ _ e; cases e
theorem Laws.Operands.imin (i : Issue) : Laws.Operands.Statement (.imin i) := by
  intro _ _ e; cases e
theorem Laws.Operands.imax (i : Issue) : Laws.Operands.Statement (.imax i) := by
  intro _ _ e; cases e
theorem Laws.Operands.icmp (i : Issue) : Laws.Operands.Statement (.icmp i) := by
  intro _ _ e; cases e
theorem Laws.Operands.vlane (i : Issue) : Laws.Operands.Statement (.vlane i) := by
  intro _ _ e; cases e
theorem Laws.Operands.sadd (i : Issue) : Laws.Operands.Statement (.sadd i) := by
  intro _ _ e; cases e
theorem Laws.Operands.ssub (i : Issue) : Laws.Operands.Statement (.ssub i) := by
  intro _ _ e; cases e
theorem Laws.Operands.smul (i : Issue) : Laws.Operands.Statement (.smul i) := by
  intro _ _ e; cases e
theorem Laws.Operands.sand (i : Issue) : Laws.Operands.Statement (.sand i) := by
  intro _ _ e; cases e
theorem Laws.Operands.sor (i : Issue) : Laws.Operands.Statement (.sor i) := by
  intro _ _ e; cases e
theorem Laws.Operands.sxor (i : Issue) : Laws.Operands.Statement (.sxor i) := by
  intro _ _ e; cases e
theorem Laws.Operands.sshl (i : Issue) : Laws.Operands.Statement (.sshl i) := by
  intro _ _ e; cases e
theorem Laws.Operands.sshr (i : Issue) : Laws.Operands.Statement (.sshr i) := by
  intro _ _ e; cases e
theorem Laws.Operands.ssar (i : Issue) : Laws.Operands.Statement (.ssar i) := by
  intro _ _ e; cases e
theorem Laws.Operands.smovi (i : Issue) : Laws.Operands.Statement (.smovi i) := by
  intro _ _ e; cases e
theorem Laws.Operands.slui (i : Issue) : Laws.Operands.Statement (.slui i) := by
  intro _ _ e; cases e
theorem Laws.Operands.scmp (i : Issue) : Laws.Operands.Statement (.scmp i) := by
  intro _ _ e; cases e
theorem Laws.Operands.pand (i : Issue) : Laws.Operands.Statement (.pand i) := by
  intro _ _ e; cases e
theorem Laws.Operands.por (i : Issue) : Laws.Operands.Statement (.por i) := by
  intro _ _ e; cases e
theorem Laws.Operands.pxor (i : Issue) : Laws.Operands.Statement (.pxor i) := by
  intro _ _ e; cases e
theorem Laws.Operands.pnot (i : Issue) : Laws.Operands.Statement (.pnot i) := by
  intro _ _ e; cases e
theorem Laws.Operands.pset (i : Issue) : Laws.Operands.Statement (.pset i) := by
  intro _ _ e; cases e
theorem Laws.Operands.pmov (i : Issue) : Laws.Operands.Statement (.pmov i) := by
  intro _ _ e; cases e
theorem Laws.Operands.cvt (i : Issue) : Laws.Operands.Statement (.cvt i) := by
  intro _ _ e; cases e
theorem Laws.Operands.cvtsr (i : Issue) : Laws.Operands.Statement (.cvtsr i) := by
  intro _ _ e; cases e
theorem Laws.Operands.mxscale (i : Issue) : Laws.Operands.Statement (.mxscale i) := by
  intro _ _ e; cases e
theorem Laws.Operands.exp2 (i : Issue) : Laws.Operands.Statement (.exp2 i) := by
  intro _ _ e; cases e
theorem Laws.Operands.log2 (i : Issue) : Laws.Operands.Statement (.log2 i) := by
  intro _ _ e; cases e
theorem Laws.Operands.rcp (i : Issue) : Laws.Operands.Statement (.rcp i) := by
  intro _ _ e; cases e
theorem Laws.Operands.rsq (i : Issue) : Laws.Operands.Statement (.rsq i) := by
  intro _ _ e; cases e
theorem Laws.Operands.tanh (i : Issue) : Laws.Operands.Statement (.tanh i) := by
  intro _ _ e; cases e
theorem Laws.Operands.sigm (i : Issue) : Laws.Operands.Statement (.sigm i) := by
  intro _ _ e; cases e
theorem Laws.Operands.erf (i : Issue) : Laws.Operands.Statement (.erf i) := by
  intro _ _ e; cases e
theorem Laws.Operands.drelu (i : Issue) : Laws.Operands.Statement (.drelu i) := by
  intro _ _ e; cases e
theorem Laws.Operands.dlrelu (i : Issue) : Laws.Operands.Statement (.dlrelu i) := by
  intro _ _ e; cases e
theorem Laws.Operands.dsigm (i : Issue) : Laws.Operands.Statement (.dsigm i) := by
  intro _ _ e; cases e
theorem Laws.Operands.dtanh (i : Issue) : Laws.Operands.Statement (.dtanh i) := by
  intro _ _ e; cases e
theorem Laws.Operands.dexp (i : Issue) : Laws.Operands.Statement (.dexp i) := by
  intro _ _ e; cases e
theorem Laws.Operands.dsmax (i : Issue) : Laws.Operands.Statement (.dsmax i) := by
  intro _ _ e; cases e
theorem Laws.Operands.hsum (i : Issue) : Laws.Operands.Statement (.hsum i) := by
  intro _ _ e; cases e
theorem Laws.Operands.hmax (i : Issue) : Laws.Operands.Statement (.hmax i) := by
  intro _ _ e; cases e
theorem Laws.Operands.hmin (i : Issue) : Laws.Operands.Statement (.hmin i) := by
  intro _ _ e; cases e
theorem Laws.Operands.hdot (i : Issue) : Laws.Operands.Statement (.hdot i) := by
  intro _ _ e; cases e
theorem Laws.Operands.lld (i : Issue) : Laws.Operands.Statement (.lld i) := by
  intro _ _ e; cases e
theorem Laws.Operands.lst (i : Issue) : Laws.Operands.Statement (.lst i) := by
  intro _ _ e; cases e
theorem Laws.Operands.lgath (i : Issue) : Laws.Operands.Statement (.lgath i) := by
  intro _ _ e; cases e
theorem Laws.Operands.lscat (i : Issue) : Laws.Operands.Statement (.lscat i) := by
  intro _ _ e; cases e
theorem Laws.Operands.pld (i : Issue) : Laws.Operands.Statement (.pld i) := by
  intro _ _ e; cases e
theorem Laws.Operands.pst (i : Issue) : Laws.Operands.Statement (.pst i) := by
  intro _ _ e; cases e
theorem Laws.Operands.mld (i : Issue) : Laws.Operands.Statement (.mld i) := by
  intro _ _ e; cases e
theorem Laws.Operands.mst (i : Issue) : Laws.Operands.Statement (.mst i) := by
  intro _ _ e; cases e
theorem Laws.Operands.gath (i : Issue) : Laws.Operands.Statement (.gath i) := by
  intro _ _ e; cases e
theorem Laws.Operands.scat (i : Issue) : Laws.Operands.Statement (.scat i) := by
  intro _ _ e; cases e
theorem Laws.Operands.scadd (i : Issue) : Laws.Operands.Statement (.scadd i) := by
  intro _ _ e; cases e
theorem Laws.Operands.skick (i : Issue) : Laws.Operands.Statement (.skick i) := by
  intro _ _ e; cases e
theorem Laws.Operands.psetn (i : Issue) : Laws.Operands.Statement (.psetn i) := by
  intro _ _ e; cases e
theorem Laws.Operands.wait (i : Issue) : Laws.Operands.Statement (.wait i) := by
  intro _ _ e; cases e
theorem Laws.Operands.signal (i : Issue) : Laws.Operands.Statement (.signal i) := by
  intro _ _ e; cases e
theorem Laws.Operands.bar (i : Issue) : Laws.Operands.Statement (.bar i) := by
  intro _ _ e; cases e
theorem Laws.Operands.draw (i : Issue) : Laws.Operands.Statement (.draw i) := by
  intro _ _ e; cases e
theorem Laws.Operands.vdraw16 (i : Issue) : Laws.Operands.Statement (.vdraw16 i) := by
  intro _ _ e; cases e
theorem Laws.Operands.vdraw32 (i : Issue) : Laws.Operands.Statement (.vdraw32 i) := by
  intro _ _ e; cases e
theorem Laws.Operands.dmask (i : Issue) : Laws.Operands.Statement (.dmask i) := by
  intro _ _ e; cases e
theorem Laws.Operands.br (i : Issue) : Laws.Operands.Statement (.br i) := by
  intro _ _ e; cases e
theorem Laws.Operands.brp (i : Issue) : Laws.Operands.Statement (.brp i) := by
  intro _ _ e; cases e
theorem Laws.Operands.loop (i : Issue) : Laws.Operands.Statement (.loop i) := by
  intro _ _ e; cases e
theorem Laws.Operands.halt (i : Issue) : Laws.Operands.Statement (.halt i) := by
  intro _ _ e; cases e
theorem Laws.Operands.trap (i : Issue) : Laws.Operands.Statement (.trap i) := by
  intro _ _ e; cases e
theorem Laws.Operands.launch (c : ClusterAt) : Laws.Operands.Statement (.launch c) := by
  intro _ _ e; cases e
theorem Laws.Operands.launchComplete (c : ClusterAt) (index : Nat) : Laws.Operands.Statement (.launchComplete c index) := by
  intro _ _ e; cases e
theorem Laws.Operands.tokenSignal (index : Nat) : Laws.Operands.Statement (.tokenSignal index) := by
  intro _ _ e; cases e
theorem Laws.Operands.repeatBegin (l : ListAt) : Laws.Operands.Statement (.repeatBegin l) := by
  intro _ _ e; cases e
theorem Laws.Operands.repeatEnd (l : ListAt) : Laws.Operands.Statement (.repeatEnd l) := by
  intro _ _ e; cases e
theorem Laws.Operands.load (c : ClusterAt) : Laws.Operands.Statement (.load c) := by
  intro _ _ e; cases e
theorem Laws.Operands.passF (c : ClusterAt) : Laws.Operands.Statement (.passF c) := by
  intro _ _ e; cases e
theorem Laws.Operands.passD (c : ClusterAt) : Laws.Operands.Statement (.passD c) := by
  intro _ _ e; cases e
theorem Laws.Operands.passW (c : ClusterAt) : Laws.Operands.Statement (.passW c) := by
  intro _ _ e; cases e
theorem Laws.Operands.edgeDrain (c : ClusterAt) : Laws.Operands.Statement (.edgeDrain c) := by
  intro _ _ e; cases e
theorem Laws.Operands.edgePreload (c : ClusterAt) : Laws.Operands.Statement (.edgePreload c) := by
  intro _ _ e; cases e
theorem Laws.Operands.siteDrain (c : ClusterAt) : Laws.Operands.Statement (.siteDrain c) := by
  intro _ _ e; cases e
theorem Laws.Operands.sitePreload (c : ClusterAt) : Laws.Operands.Statement (.sitePreload c) := by
  intro _ _ e; cases e
theorem Laws.Operands.fillerPour (c : ClusterAt) : Laws.Operands.Statement (.fillerPour c) := by
  intro _ _ e; cases e
theorem Laws.Operands.pourEnd (c : ClusterAt) : Laws.Operands.Statement (.pourEnd c) := by
  intro _ _ e; cases e
theorem Laws.Operands.prologueEnd (c : ClusterAt) : Laws.Operands.Statement (.prologueEnd c) := by
  intro _ _ e; cases e
theorem Laws.Operands.vload (m : MvAt) : Laws.Operands.Statement (.vload m) := by
  intro _ _ e; cases e
theorem Laws.Operands.runN (m : MvAt) : Laws.Operands.Statement (.runN m) := by
  intro _ _ e; cases e
theorem Laws.Operands.runT (m : MvAt) : Laws.Operands.Statement (.runT m) := by
  intro _ _ e; cases e
theorem Laws.Operands.accDrain (m : MvAt) : Laws.Operands.Statement (.accDrain m) := by
  intro _ _ e; cases e
theorem Laws.Operands.accPreload (m : MvAt) : Laws.Operands.Statement (.accPreload m) := by
  intro _ _ e; cases e
theorem Laws.Operands.runDesc (e : EngineAt) : Laws.Operands.Statement (.runDesc e) := by
  intro _ _ e; cases e
theorem Laws.Operands.kickedRun (e : EngineAt) : Laws.Operands.Statement (.kickedRun e) := by
  intro _ _ e; cases e
theorem Laws.Operands.descRunComplete (e : EngineAt) (index : Nat) : Laws.Operands.Statement (.descRunComplete e index) := by
  intro _ _ e; cases e
theorem Laws.Operands.requestAccept (h : Fin 8) : Laws.Operands.Statement (.requestAccept h) := by
  intro _ _ e; cases e
theorem Laws.Operands.sorterServe (h : Fin 8) (b : BankAt) (hits : Hits) : Laws.Operands.Statement (.sorterServe h b hits) := by
  intro _ _ e; cases e
theorem Laws.Operands.memoryResponse (h : Fin 8) (index : Nat) : Laws.Operands.Statement (.memoryResponse h index) := by
  intro _ _ e; cases e
theorem Laws.Operands.fettleRead (h : Fin 8) (hits : Hits) : Laws.Operands.Statement (.fettleRead h hits) := by
  intro _ _ e; cases e
theorem Laws.Operands.fence (h : Fin 8) (hits : Hits) : Laws.Operands.Statement (.fence h hits) := by
  intro _ _ e; cases e
theorem Laws.Operands.plateClear (h : Fin 8) : Laws.Operands.Statement (.plateClear h) := by
  intro _ _ e; cases e
theorem Laws.Operands.tier (h : Fin 8) : Laws.Operands.Statement (.tier h) := by
  intro _ _ e; cases e
theorem Laws.Operands.treeNode (h : Fin 8) : Laws.Operands.Statement (.treeNode h) := by
  intro _ _ e; cases e
theorem Laws.Operands.nodeElement (h : Fin 8) (index : Nat) : Laws.Operands.Statement (.nodeElement h index) := by
  intro _ _ e; cases e
theorem Laws.Operands.backupChunk (h : Fin 8) (index : Nat) (slot : Fin 8) (backup : Bool) : Laws.Operands.Statement (.backupChunk h index slot backup) := by
  intro _ _ e; cases e
theorem Laws.Operands.update (h : Fin 8) : Laws.Operands.Statement (.update h) := by
  intro _ _ e; cases e
theorem Laws.Operands.updateElement (h : Fin 8) (index : Nat) : Laws.Operands.Statement (.updateElement h index) := by
  intro _ _ e; cases e
theorem Laws.Operands.normDelivery (h : Fin 8) : Laws.Operands.Statement (.normDelivery h) := by
  intro _ _ e; cases e
theorem Laws.Operands.ladle (h : Fin 8) : Laws.Operands.Statement (.ladle h) := by
  intro _ _ e; cases e
theorem Laws.Operands.portSend (p : PortAt) : Laws.Operands.Statement (.portSend p) := by
  intro _ _ e; cases e
theorem Laws.Operands.portRecv (p : PortAt) : Laws.Operands.Statement (.portRecv p) := by
  intro _ _ e; cases e
theorem Laws.Operands.ckptSend (h : Fin 8) : Laws.Operands.Statement (.ckptSend h) := by
  intro _ _ e; cases e
theorem Laws.Operands.digest (m : PrioHead) (h : Fin 8) (b : DigestBody) : Laws.Operands.Statement (.digest m h b) := by
  intro _ _ e; cases e
theorem Laws.Operands.stepOpen : Laws.Operands.Statement .stepOpen := by
  intro _ _ e; cases e
theorem Laws.Operands.stepDeadline : Laws.Operands.Statement .stepDeadline := by
  intro _ _ e; cases e
theorem Laws.Operands.voteSend : Laws.Operands.Statement .voteSend := by
  intro _ _ e; cases e
theorem Laws.Operands.vote (m : PrioHead) (b : VoteBody) : Laws.Operands.Statement (.vote m b) := by
  intro _ _ e; cases e
theorem Laws.Operands.outcome (m : PrioHead) (b : OutcomeBody) : Laws.Operands.Statement (.outcome m b) := by
  intro _ _ e; cases e
theorem Laws.Operands.relabelCopyDone (h : Fin 8) : Laws.Operands.Statement (.relabelCopyDone h) := by
  intro _ _ e; cases e
theorem Laws.Operands.phase (m : PrioHead) (b : PhaseBody) : Laws.Operands.Statement (.phase m b) := by
  intro _ _ e; cases e
theorem Laws.Operands.reshardPhaseDone (rank : BitVec 11) (b : PhaseBody) : Laws.Operands.Statement (.reshardPhaseDone rank b) := by
  intro _ _ e; cases e
theorem Laws.Operands.faultReport (index : Nat) : Laws.Operands.Statement (.faultReport index) := by
  intro _ _ e; cases e
theorem Laws.Operands.faultNotice (m : PrioHead) (b : NoticeBody) : Laws.Operands.Statement (.faultNotice m b) := by
  intro _ _ e; cases e
theorem Laws.Operands.abortDeferTimeout : Laws.Operands.Statement .abortDeferTimeout := by
  intro _ _ e; cases e
theorem Laws.Operands.localAbortDone : Laws.Operands.Statement .localAbortDone := by
  intro _ _ e; cases e
theorem Laws.Operands.restartPrepared (groups : GroupFails) : Laws.Operands.Statement (.restartPrepared groups) := by
  intro _ _ e; cases e
theorem Laws.Operands.ready (m : PrioHead) (b : ReadyBody) : Laws.Operands.Statement (.ready m b) := by
  intro _ _ e; cases e
theorem Laws.Operands.readyRetryTimeout : Laws.Operands.Statement .readyRetryTimeout := by
  intro _ _ e; cases e
theorem Laws.Operands.leaderWindowExpiry : Laws.Operands.Statement .leaderWindowExpiry := by
  intro _ _ e; cases e
theorem Laws.Operands.startWindowExpiry : Laws.Operands.Statement .startWindowExpiry := by
  intro _ _ e; cases e
theorem Laws.Operands.subst (m : PrioHead) (b : SubstBody) : Laws.Operands.Statement (.subst m b) := by
  intro _ _ e; cases e
theorem Laws.Operands.go (m : PrioHead) (b : GoBody) : Laws.Operands.Statement (.go m b) := by
  intro _ _ e; cases e
theorem Laws.Operands.restoreDone : Laws.Operands.Statement .restoreDone := by
  intro _ _ e; cases e
theorem Laws.Operands.done (m : PrioHead) (gen : W64) : Laws.Operands.Statement (.done m gen) := by
  intro _ _ e; cases e
theorem Laws.Operands.openJob (m : PrioHead) : Laws.Operands.Statement (.openJob m) := by
  intro _ _ e; cases e
theorem Laws.Operands.stall (m : PrioHead) (attempt : BitVec 4) : Laws.Operands.Statement (.stall m attempt) := by
  intro _ _ e; cases e
theorem Laws.Operands.laneLock (p : PortAt) (lanes : Byte) (skewNs : Nat) : Laws.Operands.Statement (.laneLock p lanes skewNs) := by
  intro _ _ e; cases e
theorem Laws.Operands.ident (p : PortAt) (b : IdentBody) : Laws.Operands.Statement (.ident p b) := by
  intro _ _ e; cases e
theorem Laws.Operands.measure (p : PortAt) (b : MeasureBody) : Laws.Operands.Statement (.measure p b) := by
  intro _ _ e; cases e
theorem Laws.Operands.linkupTimeout (p : PortAt) : Laws.Operands.Statement (.linkupTimeout p) := by
  intro _ _ e; cases e
theorem Laws.Operands.laneLoss (p : PortAt) (lane : Fin 8) (linkLost : Bool) : Laws.Operands.Statement (.laneLoss p lane linkLost) := by
  intro _ _ e; cases e
theorem Laws.Operands.sleep (p : PortAt) (rank : BitVec 11) (farPort : BitVec 4) (epoch : W32) : Laws.Operands.Statement (.sleep p rank farPort epoch) := by
  intro _ _ e; cases e
theorem Laws.Operands.sleepRetryTimer (p : PortAt) : Laws.Operands.Statement (.sleepRetryTimer p) := by
  intro _ _ e; cases e
theorem Laws.Operands.dataFlit (p : PortAt) (lane : Fin 8) (f : Flit) : Laws.Operands.Statement (.dataFlit p lane f) := by
  intro _ _ e; cases e
theorem Laws.Operands.idle (p : PortAt) (f : Flit) : Laws.Operands.Statement (.idle p f) := by
  intro _ _ e; cases e
theorem Laws.Operands.linkReplay (p : PortAt) (prio : Bool) (s : BitVec 24) : Laws.Operands.Statement (.linkReplay p prio s) := by
  intro _ _ e; cases e
theorem Laws.Operands.replayGapTimeout (p : PortAt) (prio : Bool) : Laws.Operands.Statement (.replayGapTimeout p prio) := by
  intro _ _ e; cases e
theorem Laws.Operands.linkAckTimeout (p : PortAt) (prio : Bool) : Laws.Operands.Statement (.linkAckTimeout p prio) := by
  intro _ _ e; cases e
theorem Laws.Operands.credit (p : PortAt) (stream : BitVec 12) (delivered : Nat) : Laws.Operands.Statement (.credit p stream delivered) := by
  intro _ _ e; cases e
theorem Laws.Operands.creditReportTimer (p : PortAt) (stream : BitVec 12) : Laws.Operands.Statement (.creditReportTimer p stream) := by
  intro _ _ e; cases e
theorem Laws.Operands.refuse (p : PortAt) (stream : BitVec 12) (offset : Nat) : Laws.Operands.Statement (.refuse p stream offset) := by
  intro _ _ e; cases e
theorem Laws.Operands.linkResume (p : PortAt) (stream : BitVec 12) (offset : Nat) : Laws.Operands.Statement (.linkResume p stream offset) := by
  intro _ _ e; cases e
theorem Laws.Operands.timeSyncTimer : Laws.Operands.Statement .timeSyncTimer := by
  intro _ _ e; cases e
theorem Laws.Operands.timeSync (m : PrioHead) (t1 : Nat) : Laws.Operands.Statement (.timeSync m t1) := by
  intro _ _ e; cases e
theorem Laws.Operands.timeReply (m : PrioHead) (t2 t3 : Nat) : Laws.Operands.Statement (.timeReply m t2 t3) := by
  intro _ _ e; cases e
theorem Laws.Operands.sync (m : PtpMsg) : Laws.Operands.Statement (.sync m) := by
  intro _ _ e; cases e
theorem Laws.Operands.followUp (m : PtpMsg) : Laws.Operands.Statement (.followUp m) := by
  intro _ _ e; cases e
theorem Laws.Operands.delayResp (m : PtpMsg) : Laws.Operands.Statement (.delayResp m) := by
  intro _ _ e; cases e
theorem Laws.Operands.announce (m : PtpMsg) (b : AnnounceBody) : Laws.Operands.Statement (.announce m b) := by
  intro _ _ e; cases e
theorem Laws.Operands.timeSourceLoss : Laws.Operands.Statement .timeSourceLoss := by
  intro _ _ e; cases e
theorem Laws.Operands.ppsEdge (highFor1us : Bool) : Laws.Operands.Statement (.ppsEdge highFor1us) := by
  intro _ _ e; cases e
theorem Laws.Operands.ppsLossTimeout : Laws.Operands.Statement .ppsLossTimeout := by
  intro _ _ e; cases e
theorem Laws.Operands.ppsOutSecond : Laws.Operands.Statement .ppsOutSecond := by
  intro _ _ e; cases e
theorem Laws.Operands.ppsOutPulseEnd : Laws.Operands.Statement .ppsOutPulseEnd := by
  intro _ _ e; cases e
theorem Laws.Operands.d2dParityError (die : Fin 57) (h : Fin 8) (chan : Fin 14) (groups : List Nat) : Laws.Operands.Statement (.d2dParityError die h chan groups) := by
  intro _ _ e; cases e
theorem Laws.Operands.d2dAckTimeout (die : Fin 57) (h : Fin 8) (chan : Fin 14) (group : Nat) : Laws.Operands.Statement (.d2dAckTimeout die h chan group) := by
  intro _ _ e; cases e
theorem Laws.Operands.spareGroupError (h : Fin 8) (chan : Fin 14) (rx : Bool) (group : Nat) : Laws.Operands.Statement (.spareGroupError h chan rx group) := by
  intro _ _ e; cases e
theorem Laws.Operands.ver (h : Fin 8) (chan : Fin 14) (b : VerBody) : Laws.Operands.Statement (.ver h chan b) := by
  intro _ _ e; cases e
theorem Laws.Operands.budgetInterval (pinW : Nat) (fixedW : Nat) : Laws.Operands.Statement (.budgetInterval pinW fixedW) := by
  intro _ _ e; cases e
theorem Laws.Operands.budget (index : Nat) : Laws.Operands.Statement (.budget index) := by
  intro _ _ e; cases e
theorem Laws.Operands.report (index : Nat) : Laws.Operands.Statement (.report index) := by
  intro _ _ e; cases e
theorem Laws.Operands.quenchCuff (d : RailDie) : Laws.Operands.Statement (.quenchCuff d) := by
  intro _ _ e; cases e
theorem Laws.Operands.railControlTick (d : RailDie) (power : W16) (tj : Nat) : Laws.Operands.Statement (.railControlTick d power tj) := by
  intro _ _ e; cases e
theorem Laws.Operands.budgetStaleTimeout (d : RailDie) : Laws.Operands.Statement (.budgetStaleTimeout d) := by
  intro _ _ e; cases e
theorem Laws.Operands.inputSample (mv : Nat) (ma : Nat) : Laws.Operands.Statement (.inputSample mv ma) := by
  intro _ _ e; cases e
theorem Laws.Operands.rideThroughExpiry : Laws.Operands.Statement .rideThroughExpiry := by
  intro _ _ e; cases e
theorem Laws.Operands.overvoltageExpiry : Laws.Operands.Statement .overvoltageExpiry := by
  intro _ _ e; cases e
theorem Laws.Operands.lugOvercurrent (lug : Fin 4) : Laws.Operands.Statement (.lugOvercurrent lug) := by
  intro _ _ e; cases e
theorem Laws.Operands.junctionTrip (die : Fin 57) (tj : Nat) : Laws.Operands.Statement (.junctionTrip die tj) := by
  intro _ _ e; cases e
theorem Laws.Operands.quenchHubsDone : Laws.Operands.Statement .quenchHubsDone := by
  intro _ _ e; cases e
theorem Laws.Operands.quenchRecovery : Laws.Operands.Statement .quenchRecovery := by
  intro _ _ e; cases e
theorem Laws.Operands.thermAlert (low : Bool) : Laws.Operands.Statement (.thermAlert low) := by
  intro _ _ e; cases e
theorem Laws.Operands.pwrOkRise : Laws.Operands.Statement .pwrOkRise := by
  intro _ _ e; cases e
theorem Laws.Operands.pwrOkFall : Laws.Operands.Statement .pwrOkFall := by
  intro _ _ e; cases e
theorem Laws.Operands.inputChargeDone : Laws.Operands.Statement .inputChargeDone := by
  intro _ _ e; cases e
theorem Laws.Operands.rstNAssert : Laws.Operands.Statement .rstNAssert := by
  intro _ _ e; cases e
theorem Laws.Operands.rstNRelease (b : Board) : Laws.Operands.Statement (.rstNRelease b) := by
  intro _ _ e; cases e
theorem Laws.Operands.selfTestDone (r : SelfTest) : Laws.Operands.Statement (.selfTestDone r) := by
  intro _ _ e; cases e
theorem Laws.Operands.memoryTrainDone (r : MemTrain) : Laws.Operands.Statement (.memoryTrainDone r) := by
  intro _ _ e; cases e
theorem Laws.Operands.mouldLoad : Laws.Operands.Statement .mouldLoad := by
  intro _ _ e; cases e
theorem Laws.Operands.startupReadySend : Laws.Operands.Statement .startupReadySend := by
  intro _ _ e; cases e
theorem Laws.Operands.illegalOpcode (i : Issue) : Laws.Operands.Statement (.illegalOpcode i) := by
  intro _ _ e; cases e
theorem Laws.Operands.badOpcode (opcode : Byte) (f : Frame) : Laws.Operands.Statement (.badOpcode opcode f) := by
  intro h g e; cases e; exact of_decide_eq_true h
theorem Laws.Operands.eventRecord (index : Nat) : Laws.Operands.Statement (.eventRecord index) := by
  intro _ _ e; cases e

end Sys2Proof
end

