-- ==== Sys2Proof/Laws/State.lean ====
section
/-! SUPPORT. What the named updates of State do to each field: one lemma per field and update, so that no proof unfolds a record
update; and what a unit reads after an update of it or of another. -/
namespace Sys2Proof.Machine

variable (s : State)

@[simp] theorem State.setHub_pending (h : Nat) (v : Hub) : (s.setHub h v).pending = s.pending := rfl
@[simp] theorem State.setHub_crown (h : Nat) (v : Hub) : (s.setHub h v).crown = s.crown := rfl
@[simp] theorem State.setHub_link (h : Nat) (v : Hub) : (s.setHub h v).link = s.link := rfl
@[simp] theorem State.setHub_time (h : Nat) (v : Hub) : (s.setHub h v).time = s.time := rfl
@[simp] theorem State.setHub_power (h : Nat) (v : Hub) : (s.setHub h v).power = s.power := rfl
@[simp] theorem State.setHub_startup (h : Nat) (v : Hub) : (s.setHub h v).startup = s.startup := rfl
@[simp] theorem State.setHub_loaded (h : Nat) (v : Hub) : (s.setHub h v).loaded = s.loaded := rfl
@[simp] theorem State.setHub_tiles (h : Nat) (v : Hub) : (s.setHub h v).tiles = s.tiles := rfl
@[simp] theorem State.setHub_mem (h : Nat) (v : Hub) : (s.setHub h v).mem = s.mem := rfl
@[simp] theorem State.setHub_memErr (h : Nat) (v : Hub) : (s.setHub h v).memErr = s.memErr := rfl
@[simp] theorem State.setHub_poison (h : Nat) (v : Hub) : (s.setHub h v).poison = s.poison := rfl
@[simp] theorem State.setHub_flash (h : Nat) (v : Hub) : (s.setHub h v).flash = s.flash := rfl
@[simp] theorem State.setHub_flash0 (h : Nat) (v : Hub) : (s.setHub h v).flash0 = s.flash0 := rfl
@[simp] theorem State.setHub_flash1 (h : Nat) (v : Hub) : (s.setHub h v).flash1 = s.flash1 := rfl
@[simp] theorem State.setHub_journal (h : Nat) (v : Hub) : (s.setHub h v).journal = s.journal := rfl
@[simp] theorem State.setHub_keySlots (h : Nat) (v : Hub) : (s.setHub h v).keySlots = s.keySlots := rfl
@[simp] theorem State.setHub_revoked (h : Nat) (v : Hub) : (s.setHub h v).revoked = s.revoked := rfl
@[simp] theorem State.setHub_idKey (h : Nat) (v : Hub) : (s.setHub h v).idKey = s.idKey := rfl
@[simp] theorem State.setHub_powerUps (h : Nat) (v : Hub) : (s.setHub h v).powerUps = s.powerUps := rfl
@[simp] theorem State.setHub_rstN (h : Nat) (v : Hub) : (s.setHub h v).rstN = s.rstN := rfl
@[simp] theorem State.setHub_pwrOk (h : Nat) (v : Hub) : (s.setHub h v).pwrOk = s.pwrOk := rfl
@[simp] theorem State.setHub_thermLow (h : Nat) (v : Hub) : (s.setHub h v).thermLow = s.thermLow := rfl
@[simp] theorem State.setHub_free (h : Nat) (v : Hub) : (s.setHub h v).free = s.free := rfl

@[simp] theorem State.updHub_pending (h : Nat) (f : Hub → Hub) : (s.updHub h f).pending = s.pending := rfl
@[simp] theorem State.updHub_crown (h : Nat) (f : Hub → Hub) : (s.updHub h f).crown = s.crown := rfl
@[simp] theorem State.updHub_link (h : Nat) (f : Hub → Hub) : (s.updHub h f).link = s.link := rfl
@[simp] theorem State.updHub_time (h : Nat) (f : Hub → Hub) : (s.updHub h f).time = s.time := rfl
@[simp] theorem State.updHub_power (h : Nat) (f : Hub → Hub) : (s.updHub h f).power = s.power := rfl
@[simp] theorem State.updHub_startup (h : Nat) (f : Hub → Hub) : (s.updHub h f).startup = s.startup := rfl
@[simp] theorem State.updHub_loaded (h : Nat) (f : Hub → Hub) : (s.updHub h f).loaded = s.loaded := rfl
@[simp] theorem State.updHub_tiles (h : Nat) (f : Hub → Hub) : (s.updHub h f).tiles = s.tiles := rfl
@[simp] theorem State.updHub_mem (h : Nat) (f : Hub → Hub) : (s.updHub h f).mem = s.mem := rfl
@[simp] theorem State.updHub_memErr (h : Nat) (f : Hub → Hub) : (s.updHub h f).memErr = s.memErr := rfl
@[simp] theorem State.updHub_poison (h : Nat) (f : Hub → Hub) : (s.updHub h f).poison = s.poison := rfl
@[simp] theorem State.updHub_flash (h : Nat) (f : Hub → Hub) : (s.updHub h f).flash = s.flash := rfl
@[simp] theorem State.updHub_flash0 (h : Nat) (f : Hub → Hub) : (s.updHub h f).flash0 = s.flash0 := rfl
@[simp] theorem State.updHub_flash1 (h : Nat) (f : Hub → Hub) : (s.updHub h f).flash1 = s.flash1 := rfl
@[simp] theorem State.updHub_journal (h : Nat) (f : Hub → Hub) : (s.updHub h f).journal = s.journal := rfl
@[simp] theorem State.updHub_keySlots (h : Nat) (f : Hub → Hub) : (s.updHub h f).keySlots = s.keySlots := rfl
@[simp] theorem State.updHub_revoked (h : Nat) (f : Hub → Hub) : (s.updHub h f).revoked = s.revoked := rfl
@[simp] theorem State.updHub_idKey (h : Nat) (f : Hub → Hub) : (s.updHub h f).idKey = s.idKey := rfl
@[simp] theorem State.updHub_powerUps (h : Nat) (f : Hub → Hub) : (s.updHub h f).powerUps = s.powerUps := rfl
@[simp] theorem State.updHub_rstN (h : Nat) (f : Hub → Hub) : (s.updHub h f).rstN = s.rstN := rfl
@[simp] theorem State.updHub_pwrOk (h : Nat) (f : Hub → Hub) : (s.updHub h f).pwrOk = s.pwrOk := rfl
@[simp] theorem State.updHub_thermLow (h : Nat) (f : Hub → Hub) : (s.updHub h f).thermLow = s.thermLow := rfl
@[simp] theorem State.updHub_free (h : Nat) (f : Hub → Hub) : (s.updHub h f).free = s.free := rfl

@[simp] theorem State.setTile_pending (p : Nat) (v : Tile) : (s.setTile p v).pending = s.pending := rfl
@[simp] theorem State.setTile_crown (p : Nat) (v : Tile) : (s.setTile p v).crown = s.crown := rfl
@[simp] theorem State.setTile_link (p : Nat) (v : Tile) : (s.setTile p v).link = s.link := rfl
@[simp] theorem State.setTile_time (p : Nat) (v : Tile) : (s.setTile p v).time = s.time := rfl
@[simp] theorem State.setTile_power (p : Nat) (v : Tile) : (s.setTile p v).power = s.power := rfl
@[simp] theorem State.setTile_startup (p : Nat) (v : Tile) : (s.setTile p v).startup = s.startup := rfl
@[simp] theorem State.setTile_loaded (p : Nat) (v : Tile) : (s.setTile p v).loaded = s.loaded := rfl
@[simp] theorem State.setTile_hubs (p : Nat) (v : Tile) : (s.setTile p v).hubs = s.hubs := rfl
@[simp] theorem State.setTile_mem (p : Nat) (v : Tile) : (s.setTile p v).mem = s.mem := rfl
@[simp] theorem State.setTile_memErr (p : Nat) (v : Tile) : (s.setTile p v).memErr = s.memErr := rfl
@[simp] theorem State.setTile_poison (p : Nat) (v : Tile) : (s.setTile p v).poison = s.poison := rfl
@[simp] theorem State.setTile_flash (p : Nat) (v : Tile) : (s.setTile p v).flash = s.flash := rfl
@[simp] theorem State.setTile_flash0 (p : Nat) (v : Tile) : (s.setTile p v).flash0 = s.flash0 := rfl
@[simp] theorem State.setTile_flash1 (p : Nat) (v : Tile) : (s.setTile p v).flash1 = s.flash1 := rfl
@[simp] theorem State.setTile_journal (p : Nat) (v : Tile) : (s.setTile p v).journal = s.journal := rfl
@[simp] theorem State.setTile_keySlots (p : Nat) (v : Tile) : (s.setTile p v).keySlots = s.keySlots := rfl
@[simp] theorem State.setTile_revoked (p : Nat) (v : Tile) : (s.setTile p v).revoked = s.revoked := rfl
@[simp] theorem State.setTile_idKey (p : Nat) (v : Tile) : (s.setTile p v).idKey = s.idKey := rfl
@[simp] theorem State.setTile_powerUps (p : Nat) (v : Tile) : (s.setTile p v).powerUps = s.powerUps := rfl
@[simp] theorem State.setTile_rstN (p : Nat) (v : Tile) : (s.setTile p v).rstN = s.rstN := rfl
@[simp] theorem State.setTile_pwrOk (p : Nat) (v : Tile) : (s.setTile p v).pwrOk = s.pwrOk := rfl
@[simp] theorem State.setTile_thermLow (p : Nat) (v : Tile) : (s.setTile p v).thermLow = s.thermLow := rfl
@[simp] theorem State.setTile_free (p : Nat) (v : Tile) : (s.setTile p v).free = s.free := rfl

@[simp] theorem State.updTile_pending (p : Nat) (f : Tile → Tile) : (s.updTile p f).pending = s.pending := rfl
@[simp] theorem State.updTile_crown (p : Nat) (f : Tile → Tile) : (s.updTile p f).crown = s.crown := rfl
@[simp] theorem State.updTile_link (p : Nat) (f : Tile → Tile) : (s.updTile p f).link = s.link := rfl
@[simp] theorem State.updTile_time (p : Nat) (f : Tile → Tile) : (s.updTile p f).time = s.time := rfl
@[simp] theorem State.updTile_power (p : Nat) (f : Tile → Tile) : (s.updTile p f).power = s.power := rfl
@[simp] theorem State.updTile_startup (p : Nat) (f : Tile → Tile) : (s.updTile p f).startup = s.startup := rfl
@[simp] theorem State.updTile_loaded (p : Nat) (f : Tile → Tile) : (s.updTile p f).loaded = s.loaded := rfl
@[simp] theorem State.updTile_hubs (p : Nat) (f : Tile → Tile) : (s.updTile p f).hubs = s.hubs := rfl
@[simp] theorem State.updTile_mem (p : Nat) (f : Tile → Tile) : (s.updTile p f).mem = s.mem := rfl
@[simp] theorem State.updTile_memErr (p : Nat) (f : Tile → Tile) : (s.updTile p f).memErr = s.memErr := rfl
@[simp] theorem State.updTile_poison (p : Nat) (f : Tile → Tile) : (s.updTile p f).poison = s.poison := rfl
@[simp] theorem State.updTile_flash (p : Nat) (f : Tile → Tile) : (s.updTile p f).flash = s.flash := rfl
@[simp] theorem State.updTile_flash0 (p : Nat) (f : Tile → Tile) : (s.updTile p f).flash0 = s.flash0 := rfl
@[simp] theorem State.updTile_flash1 (p : Nat) (f : Tile → Tile) : (s.updTile p f).flash1 = s.flash1 := rfl
@[simp] theorem State.updTile_journal (p : Nat) (f : Tile → Tile) : (s.updTile p f).journal = s.journal := rfl
@[simp] theorem State.updTile_keySlots (p : Nat) (f : Tile → Tile) : (s.updTile p f).keySlots = s.keySlots := rfl
@[simp] theorem State.updTile_revoked (p : Nat) (f : Tile → Tile) : (s.updTile p f).revoked = s.revoked := rfl
@[simp] theorem State.updTile_idKey (p : Nat) (f : Tile → Tile) : (s.updTile p f).idKey = s.idKey := rfl
@[simp] theorem State.updTile_powerUps (p : Nat) (f : Tile → Tile) : (s.updTile p f).powerUps = s.powerUps := rfl
@[simp] theorem State.updTile_rstN (p : Nat) (f : Tile → Tile) : (s.updTile p f).rstN = s.rstN := rfl
@[simp] theorem State.updTile_pwrOk (p : Nat) (f : Tile → Tile) : (s.updTile p f).pwrOk = s.pwrOk := rfl
@[simp] theorem State.updTile_thermLow (p : Nat) (f : Tile → Tile) : (s.updTile p f).thermLow = s.thermLow := rfl
@[simp] theorem State.updTile_free (p : Nat) (f : Tile → Tile) : (s.updTile p f).free = s.free := rfl

@[simp] theorem State.updLtile_pending (t : Nat) (f : Tile → Tile) : (s.updLtile t f).pending = s.pending := rfl
@[simp] theorem State.updLtile_crown (t : Nat) (f : Tile → Tile) : (s.updLtile t f).crown = s.crown := rfl
@[simp] theorem State.updLtile_link (t : Nat) (f : Tile → Tile) : (s.updLtile t f).link = s.link := rfl
@[simp] theorem State.updLtile_time (t : Nat) (f : Tile → Tile) : (s.updLtile t f).time = s.time := rfl
@[simp] theorem State.updLtile_power (t : Nat) (f : Tile → Tile) : (s.updLtile t f).power = s.power := rfl
@[simp] theorem State.updLtile_startup (t : Nat) (f : Tile → Tile) : (s.updLtile t f).startup = s.startup := rfl
@[simp] theorem State.updLtile_loaded (t : Nat) (f : Tile → Tile) : (s.updLtile t f).loaded = s.loaded := rfl
@[simp] theorem State.updLtile_hubs (t : Nat) (f : Tile → Tile) : (s.updLtile t f).hubs = s.hubs := rfl
@[simp] theorem State.updLtile_mem (t : Nat) (f : Tile → Tile) : (s.updLtile t f).mem = s.mem := rfl
@[simp] theorem State.updLtile_memErr (t : Nat) (f : Tile → Tile) : (s.updLtile t f).memErr = s.memErr := rfl
@[simp] theorem State.updLtile_poison (t : Nat) (f : Tile → Tile) : (s.updLtile t f).poison = s.poison := rfl
@[simp] theorem State.updLtile_flash (t : Nat) (f : Tile → Tile) : (s.updLtile t f).flash = s.flash := rfl
@[simp] theorem State.updLtile_flash0 (t : Nat) (f : Tile → Tile) : (s.updLtile t f).flash0 = s.flash0 := rfl
@[simp] theorem State.updLtile_flash1 (t : Nat) (f : Tile → Tile) : (s.updLtile t f).flash1 = s.flash1 := rfl
@[simp] theorem State.updLtile_journal (t : Nat) (f : Tile → Tile) : (s.updLtile t f).journal = s.journal := rfl
@[simp] theorem State.updLtile_keySlots (t : Nat) (f : Tile → Tile) : (s.updLtile t f).keySlots = s.keySlots := rfl
@[simp] theorem State.updLtile_revoked (t : Nat) (f : Tile → Tile) : (s.updLtile t f).revoked = s.revoked := rfl
@[simp] theorem State.updLtile_idKey (t : Nat) (f : Tile → Tile) : (s.updLtile t f).idKey = s.idKey := rfl
@[simp] theorem State.updLtile_powerUps (t : Nat) (f : Tile → Tile) : (s.updLtile t f).powerUps = s.powerUps := rfl
@[simp] theorem State.updLtile_rstN (t : Nat) (f : Tile → Tile) : (s.updLtile t f).rstN = s.rstN := rfl
@[simp] theorem State.updLtile_pwrOk (t : Nat) (f : Tile → Tile) : (s.updLtile t f).pwrOk = s.pwrOk := rfl
@[simp] theorem State.updLtile_thermLow (t : Nat) (f : Tile → Tile) : (s.updLtile t f).thermLow = s.thermLow := rfl
@[simp] theorem State.updLtile_free (t : Nat) (f : Tile → Tile) : (s.updLtile t f).free = s.free := rfl

@[simp] theorem State.setCluster_pending (t k : Nat) (c : Cluster) : (s.setCluster t k c).pending = s.pending := rfl
@[simp] theorem State.setCluster_crown (t k : Nat) (c : Cluster) : (s.setCluster t k c).crown = s.crown := rfl
@[simp] theorem State.setCluster_link (t k : Nat) (c : Cluster) : (s.setCluster t k c).link = s.link := rfl
@[simp] theorem State.setCluster_time (t k : Nat) (c : Cluster) : (s.setCluster t k c).time = s.time := rfl
@[simp] theorem State.setCluster_power (t k : Nat) (c : Cluster) : (s.setCluster t k c).power = s.power := rfl
@[simp] theorem State.setCluster_startup (t k : Nat) (c : Cluster) : (s.setCluster t k c).startup = s.startup := rfl
@[simp] theorem State.setCluster_loaded (t k : Nat) (c : Cluster) : (s.setCluster t k c).loaded = s.loaded := rfl
@[simp] theorem State.setCluster_hubs (t k : Nat) (c : Cluster) : (s.setCluster t k c).hubs = s.hubs := rfl
@[simp] theorem State.setCluster_mem (t k : Nat) (c : Cluster) : (s.setCluster t k c).mem = s.mem := rfl
@[simp] theorem State.setCluster_memErr (t k : Nat) (c : Cluster) : (s.setCluster t k c).memErr = s.memErr := rfl
@[simp] theorem State.setCluster_poison (t k : Nat) (c : Cluster) : (s.setCluster t k c).poison = s.poison := rfl
@[simp] theorem State.setCluster_flash (t k : Nat) (c : Cluster) : (s.setCluster t k c).flash = s.flash := rfl
@[simp] theorem State.setCluster_flash0 (t k : Nat) (c : Cluster) : (s.setCluster t k c).flash0 = s.flash0 := rfl
@[simp] theorem State.setCluster_flash1 (t k : Nat) (c : Cluster) : (s.setCluster t k c).flash1 = s.flash1 := rfl
@[simp] theorem State.setCluster_journal (t k : Nat) (c : Cluster) : (s.setCluster t k c).journal = s.journal := rfl
@[simp] theorem State.setCluster_keySlots (t k : Nat) (c : Cluster) : (s.setCluster t k c).keySlots = s.keySlots := rfl
@[simp] theorem State.setCluster_revoked (t k : Nat) (c : Cluster) : (s.setCluster t k c).revoked = s.revoked := rfl
@[simp] theorem State.setCluster_idKey (t k : Nat) (c : Cluster) : (s.setCluster t k c).idKey = s.idKey := rfl
@[simp] theorem State.setCluster_powerUps (t k : Nat) (c : Cluster) : (s.setCluster t k c).powerUps = s.powerUps := rfl
@[simp] theorem State.setCluster_rstN (t k : Nat) (c : Cluster) : (s.setCluster t k c).rstN = s.rstN := rfl
@[simp] theorem State.setCluster_pwrOk (t k : Nat) (c : Cluster) : (s.setCluster t k c).pwrOk = s.pwrOk := rfl
@[simp] theorem State.setCluster_thermLow (t k : Nat) (c : Cluster) : (s.setCluster t k c).thermLow = s.thermLow := rfl
@[simp] theorem State.setCluster_free (t k : Nat) (c : Cluster) : (s.setCluster t k c).free = s.free := rfl

@[simp] theorem State.updCluster_pending (t k : Nat) (f : Cluster → Cluster) : (s.updCluster t k f).pending = s.pending := rfl
@[simp] theorem State.updCluster_crown (t k : Nat) (f : Cluster → Cluster) : (s.updCluster t k f).crown = s.crown := rfl
@[simp] theorem State.updCluster_link (t k : Nat) (f : Cluster → Cluster) : (s.updCluster t k f).link = s.link := rfl
@[simp] theorem State.updCluster_time (t k : Nat) (f : Cluster → Cluster) : (s.updCluster t k f).time = s.time := rfl
@[simp] theorem State.updCluster_power (t k : Nat) (f : Cluster → Cluster) : (s.updCluster t k f).power = s.power := rfl
@[simp] theorem State.updCluster_startup (t k : Nat) (f : Cluster → Cluster) : (s.updCluster t k f).startup = s.startup := rfl
@[simp] theorem State.updCluster_loaded (t k : Nat) (f : Cluster → Cluster) : (s.updCluster t k f).loaded = s.loaded := rfl
@[simp] theorem State.updCluster_hubs (t k : Nat) (f : Cluster → Cluster) : (s.updCluster t k f).hubs = s.hubs := rfl
@[simp] theorem State.updCluster_mem (t k : Nat) (f : Cluster → Cluster) : (s.updCluster t k f).mem = s.mem := rfl
@[simp] theorem State.updCluster_memErr (t k : Nat) (f : Cluster → Cluster) : (s.updCluster t k f).memErr = s.memErr := rfl
@[simp] theorem State.updCluster_poison (t k : Nat) (f : Cluster → Cluster) : (s.updCluster t k f).poison = s.poison := rfl
@[simp] theorem State.updCluster_flash (t k : Nat) (f : Cluster → Cluster) : (s.updCluster t k f).flash = s.flash := rfl
@[simp] theorem State.updCluster_flash0 (t k : Nat) (f : Cluster → Cluster) : (s.updCluster t k f).flash0 = s.flash0 := rfl
@[simp] theorem State.updCluster_flash1 (t k : Nat) (f : Cluster → Cluster) : (s.updCluster t k f).flash1 = s.flash1 := rfl
@[simp] theorem State.updCluster_journal (t k : Nat) (f : Cluster → Cluster) : (s.updCluster t k f).journal = s.journal := rfl
@[simp] theorem State.updCluster_keySlots (t k : Nat) (f : Cluster → Cluster) : (s.updCluster t k f).keySlots = s.keySlots := rfl
@[simp] theorem State.updCluster_revoked (t k : Nat) (f : Cluster → Cluster) : (s.updCluster t k f).revoked = s.revoked := rfl
@[simp] theorem State.updCluster_idKey (t k : Nat) (f : Cluster → Cluster) : (s.updCluster t k f).idKey = s.idKey := rfl
@[simp] theorem State.updCluster_powerUps (t k : Nat) (f : Cluster → Cluster) : (s.updCluster t k f).powerUps = s.powerUps := rfl
@[simp] theorem State.updCluster_rstN (t k : Nat) (f : Cluster → Cluster) : (s.updCluster t k f).rstN = s.rstN := rfl
@[simp] theorem State.updCluster_pwrOk (t k : Nat) (f : Cluster → Cluster) : (s.updCluster t k f).pwrOk = s.pwrOk := rfl
@[simp] theorem State.updCluster_thermLow (t k : Nat) (f : Cluster → Cluster) : (s.updCluster t k f).thermLow = s.thermLow := rfl
@[simp] theorem State.updCluster_free (t k : Nat) (f : Cluster → Cluster) : (s.updCluster t k f).free = s.free := rfl

@[simp] theorem State.updPort_pending (h m : Nat) (f : Port → Port) : (s.updPort h m f).pending = s.pending := rfl
@[simp] theorem State.updPort_crown (h m : Nat) (f : Port → Port) : (s.updPort h m f).crown = s.crown := rfl
@[simp] theorem State.updPort_link (h m : Nat) (f : Port → Port) : (s.updPort h m f).link = s.link := rfl
@[simp] theorem State.updPort_time (h m : Nat) (f : Port → Port) : (s.updPort h m f).time = s.time := rfl
@[simp] theorem State.updPort_power (h m : Nat) (f : Port → Port) : (s.updPort h m f).power = s.power := rfl
@[simp] theorem State.updPort_startup (h m : Nat) (f : Port → Port) : (s.updPort h m f).startup = s.startup := rfl
@[simp] theorem State.updPort_loaded (h m : Nat) (f : Port → Port) : (s.updPort h m f).loaded = s.loaded := rfl
@[simp] theorem State.updPort_tiles (h m : Nat) (f : Port → Port) : (s.updPort h m f).tiles = s.tiles := rfl
@[simp] theorem State.updPort_mem (h m : Nat) (f : Port → Port) : (s.updPort h m f).mem = s.mem := rfl
@[simp] theorem State.updPort_memErr (h m : Nat) (f : Port → Port) : (s.updPort h m f).memErr = s.memErr := rfl
@[simp] theorem State.updPort_poison (h m : Nat) (f : Port → Port) : (s.updPort h m f).poison = s.poison := rfl
@[simp] theorem State.updPort_flash (h m : Nat) (f : Port → Port) : (s.updPort h m f).flash = s.flash := rfl
@[simp] theorem State.updPort_flash0 (h m : Nat) (f : Port → Port) : (s.updPort h m f).flash0 = s.flash0 := rfl
@[simp] theorem State.updPort_flash1 (h m : Nat) (f : Port → Port) : (s.updPort h m f).flash1 = s.flash1 := rfl
@[simp] theorem State.updPort_journal (h m : Nat) (f : Port → Port) : (s.updPort h m f).journal = s.journal := rfl
@[simp] theorem State.updPort_keySlots (h m : Nat) (f : Port → Port) : (s.updPort h m f).keySlots = s.keySlots := rfl
@[simp] theorem State.updPort_revoked (h m : Nat) (f : Port → Port) : (s.updPort h m f).revoked = s.revoked := rfl
@[simp] theorem State.updPort_idKey (h m : Nat) (f : Port → Port) : (s.updPort h m f).idKey = s.idKey := rfl
@[simp] theorem State.updPort_powerUps (h m : Nat) (f : Port → Port) : (s.updPort h m f).powerUps = s.powerUps := rfl
@[simp] theorem State.updPort_rstN (h m : Nat) (f : Port → Port) : (s.updPort h m f).rstN = s.rstN := rfl
@[simp] theorem State.updPort_pwrOk (h m : Nat) (f : Port → Port) : (s.updPort h m f).pwrOk = s.pwrOk := rfl
@[simp] theorem State.updPort_thermLow (h m : Nat) (f : Port → Port) : (s.updPort h m f).thermLow = s.thermLow := rfl
@[simp] theorem State.updPort_free (h m : Nat) (f : Port → Port) : (s.updPort h m f).free = s.free := rfl

@[simp] theorem State.updCrown_pending (f : Crown → Crown) : (s.updCrown f).pending = s.pending := rfl
@[simp] theorem State.updCrown_link (f : Crown → Crown) : (s.updCrown f).link = s.link := rfl
@[simp] theorem State.updCrown_time (f : Crown → Crown) : (s.updCrown f).time = s.time := rfl
@[simp] theorem State.updCrown_power (f : Crown → Crown) : (s.updCrown f).power = s.power := rfl
@[simp] theorem State.updCrown_startup (f : Crown → Crown) : (s.updCrown f).startup = s.startup := rfl
@[simp] theorem State.updCrown_loaded (f : Crown → Crown) : (s.updCrown f).loaded = s.loaded := rfl
@[simp] theorem State.updCrown_hubs (f : Crown → Crown) : (s.updCrown f).hubs = s.hubs := rfl
@[simp] theorem State.updCrown_tiles (f : Crown → Crown) : (s.updCrown f).tiles = s.tiles := rfl
@[simp] theorem State.updCrown_mem (f : Crown → Crown) : (s.updCrown f).mem = s.mem := rfl
@[simp] theorem State.updCrown_memErr (f : Crown → Crown) : (s.updCrown f).memErr = s.memErr := rfl
@[simp] theorem State.updCrown_poison (f : Crown → Crown) : (s.updCrown f).poison = s.poison := rfl
@[simp] theorem State.updCrown_flash (f : Crown → Crown) : (s.updCrown f).flash = s.flash := rfl
@[simp] theorem State.updCrown_flash0 (f : Crown → Crown) : (s.updCrown f).flash0 = s.flash0 := rfl
@[simp] theorem State.updCrown_flash1 (f : Crown → Crown) : (s.updCrown f).flash1 = s.flash1 := rfl
@[simp] theorem State.updCrown_journal (f : Crown → Crown) : (s.updCrown f).journal = s.journal := rfl
@[simp] theorem State.updCrown_keySlots (f : Crown → Crown) : (s.updCrown f).keySlots = s.keySlots := rfl
@[simp] theorem State.updCrown_revoked (f : Crown → Crown) : (s.updCrown f).revoked = s.revoked := rfl
@[simp] theorem State.updCrown_idKey (f : Crown → Crown) : (s.updCrown f).idKey = s.idKey := rfl
@[simp] theorem State.updCrown_powerUps (f : Crown → Crown) : (s.updCrown f).powerUps = s.powerUps := rfl
@[simp] theorem State.updCrown_rstN (f : Crown → Crown) : (s.updCrown f).rstN = s.rstN := rfl
@[simp] theorem State.updCrown_pwrOk (f : Crown → Crown) : (s.updCrown f).pwrOk = s.pwrOk := rfl
@[simp] theorem State.updCrown_thermLow (f : Crown → Crown) : (s.updCrown f).thermLow = s.thermLow := rfl
@[simp] theorem State.updCrown_free (f : Crown → Crown) : (s.updCrown f).free = s.free := rfl

@[simp] theorem State.crownDross_pending (cls n : Nat) : (s.crownDross cls n).pending = s.pending := rfl
@[simp] theorem State.crownDross_link (cls n : Nat) : (s.crownDross cls n).link = s.link := rfl
@[simp] theorem State.crownDross_time (cls n : Nat) : (s.crownDross cls n).time = s.time := rfl
@[simp] theorem State.crownDross_power (cls n : Nat) : (s.crownDross cls n).power = s.power := rfl
@[simp] theorem State.crownDross_startup (cls n : Nat) : (s.crownDross cls n).startup = s.startup := rfl
@[simp] theorem State.crownDross_loaded (cls n : Nat) : (s.crownDross cls n).loaded = s.loaded := rfl
@[simp] theorem State.crownDross_hubs (cls n : Nat) : (s.crownDross cls n).hubs = s.hubs := rfl
@[simp] theorem State.crownDross_tiles (cls n : Nat) : (s.crownDross cls n).tiles = s.tiles := rfl
@[simp] theorem State.crownDross_mem (cls n : Nat) : (s.crownDross cls n).mem = s.mem := rfl
@[simp] theorem State.crownDross_memErr (cls n : Nat) : (s.crownDross cls n).memErr = s.memErr := rfl
@[simp] theorem State.crownDross_poison (cls n : Nat) : (s.crownDross cls n).poison = s.poison := rfl
@[simp] theorem State.crownDross_flash (cls n : Nat) : (s.crownDross cls n).flash = s.flash := rfl
@[simp] theorem State.crownDross_flash0 (cls n : Nat) : (s.crownDross cls n).flash0 = s.flash0 := rfl
@[simp] theorem State.crownDross_flash1 (cls n : Nat) : (s.crownDross cls n).flash1 = s.flash1 := rfl
@[simp] theorem State.crownDross_journal (cls n : Nat) : (s.crownDross cls n).journal = s.journal := rfl
@[simp] theorem State.crownDross_keySlots (cls n : Nat) : (s.crownDross cls n).keySlots = s.keySlots := rfl
@[simp] theorem State.crownDross_revoked (cls n : Nat) : (s.crownDross cls n).revoked = s.revoked := rfl
@[simp] theorem State.crownDross_idKey (cls n : Nat) : (s.crownDross cls n).idKey = s.idKey := rfl
@[simp] theorem State.crownDross_powerUps (cls n : Nat) : (s.crownDross cls n).powerUps = s.powerUps := rfl
@[simp] theorem State.crownDross_rstN (cls n : Nat) : (s.crownDross cls n).rstN = s.rstN := rfl
@[simp] theorem State.crownDross_pwrOk (cls n : Nat) : (s.crownDross cls n).pwrOk = s.pwrOk := rfl
@[simp] theorem State.crownDross_thermLow (cls n : Nat) : (s.crownDross cls n).thermLow = s.thermLow := rfl
@[simp] theorem State.crownDross_free (cls n : Nat) : (s.crownDross cls n).free = s.free := rfl

@[simp] theorem State.report_pending (die code : Nat) (fs : List (Nat × Nat)) (ty : Option Nat) : (s.report die code fs ty).pending = s.pending := rfl
@[simp] theorem State.report_link (die code : Nat) (fs : List (Nat × Nat)) (ty : Option Nat) : (s.report die code fs ty).link = s.link := rfl
@[simp] theorem State.report_time (die code : Nat) (fs : List (Nat × Nat)) (ty : Option Nat) : (s.report die code fs ty).time = s.time := rfl
@[simp] theorem State.report_power (die code : Nat) (fs : List (Nat × Nat)) (ty : Option Nat) : (s.report die code fs ty).power = s.power := rfl
@[simp] theorem State.report_startup (die code : Nat) (fs : List (Nat × Nat)) (ty : Option Nat) : (s.report die code fs ty).startup = s.startup := rfl
@[simp] theorem State.report_loaded (die code : Nat) (fs : List (Nat × Nat)) (ty : Option Nat) : (s.report die code fs ty).loaded = s.loaded := rfl
@[simp] theorem State.report_hubs (die code : Nat) (fs : List (Nat × Nat)) (ty : Option Nat) : (s.report die code fs ty).hubs = s.hubs := rfl
@[simp] theorem State.report_tiles (die code : Nat) (fs : List (Nat × Nat)) (ty : Option Nat) : (s.report die code fs ty).tiles = s.tiles := rfl
@[simp] theorem State.report_mem (die code : Nat) (fs : List (Nat × Nat)) (ty : Option Nat) : (s.report die code fs ty).mem = s.mem := rfl
@[simp] theorem State.report_memErr (die code : Nat) (fs : List (Nat × Nat)) (ty : Option Nat) : (s.report die code fs ty).memErr = s.memErr := rfl
@[simp] theorem State.report_poison (die code : Nat) (fs : List (Nat × Nat)) (ty : Option Nat) : (s.report die code fs ty).poison = s.poison := rfl
@[simp] theorem State.report_flash (die code : Nat) (fs : List (Nat × Nat)) (ty : Option Nat) : (s.report die code fs ty).flash = s.flash := rfl
@[simp] theorem State.report_flash0 (die code : Nat) (fs : List (Nat × Nat)) (ty : Option Nat) : (s.report die code fs ty).flash0 = s.flash0 := rfl
@[simp] theorem State.report_flash1 (die code : Nat) (fs : List (Nat × Nat)) (ty : Option Nat) : (s.report die code fs ty).flash1 = s.flash1 := rfl
@[simp] theorem State.report_journal (die code : Nat) (fs : List (Nat × Nat)) (ty : Option Nat) : (s.report die code fs ty).journal = s.journal := rfl
@[simp] theorem State.report_keySlots (die code : Nat) (fs : List (Nat × Nat)) (ty : Option Nat) : (s.report die code fs ty).keySlots = s.keySlots := rfl
@[simp] theorem State.report_revoked (die code : Nat) (fs : List (Nat × Nat)) (ty : Option Nat) : (s.report die code fs ty).revoked = s.revoked := rfl
@[simp] theorem State.report_idKey (die code : Nat) (fs : List (Nat × Nat)) (ty : Option Nat) : (s.report die code fs ty).idKey = s.idKey := rfl
@[simp] theorem State.report_powerUps (die code : Nat) (fs : List (Nat × Nat)) (ty : Option Nat) : (s.report die code fs ty).powerUps = s.powerUps := rfl
@[simp] theorem State.report_rstN (die code : Nat) (fs : List (Nat × Nat)) (ty : Option Nat) : (s.report die code fs ty).rstN = s.rstN := rfl
@[simp] theorem State.report_pwrOk (die code : Nat) (fs : List (Nat × Nat)) (ty : Option Nat) : (s.report die code fs ty).pwrOk = s.pwrOk := rfl
@[simp] theorem State.report_thermLow (die code : Nat) (fs : List (Nat × Nat)) (ty : Option Nat) : (s.report die code fs ty).thermLow = s.thermLow := rfl
@[simp] theorem State.report_free (die code : Nat) (fs : List (Nat × Nat)) (ty : Option Nat) : (s.report die code fs ty).free = s.free := rfl

@[simp] theorem State.record_pending (die type : Nat) (fs : List (Nat × Nat)) : (s.record die type fs).pending = s.pending := rfl
@[simp] theorem State.record_link (die type : Nat) (fs : List (Nat × Nat)) : (s.record die type fs).link = s.link := rfl
@[simp] theorem State.record_time (die type : Nat) (fs : List (Nat × Nat)) : (s.record die type fs).time = s.time := rfl
@[simp] theorem State.record_power (die type : Nat) (fs : List (Nat × Nat)) : (s.record die type fs).power = s.power := rfl
@[simp] theorem State.record_startup (die type : Nat) (fs : List (Nat × Nat)) : (s.record die type fs).startup = s.startup := rfl
@[simp] theorem State.record_loaded (die type : Nat) (fs : List (Nat × Nat)) : (s.record die type fs).loaded = s.loaded := rfl
@[simp] theorem State.record_hubs (die type : Nat) (fs : List (Nat × Nat)) : (s.record die type fs).hubs = s.hubs := rfl
@[simp] theorem State.record_tiles (die type : Nat) (fs : List (Nat × Nat)) : (s.record die type fs).tiles = s.tiles := rfl
@[simp] theorem State.record_mem (die type : Nat) (fs : List (Nat × Nat)) : (s.record die type fs).mem = s.mem := rfl
@[simp] theorem State.record_memErr (die type : Nat) (fs : List (Nat × Nat)) : (s.record die type fs).memErr = s.memErr := rfl
@[simp] theorem State.record_poison (die type : Nat) (fs : List (Nat × Nat)) : (s.record die type fs).poison = s.poison := rfl
@[simp] theorem State.record_flash (die type : Nat) (fs : List (Nat × Nat)) : (s.record die type fs).flash = s.flash := rfl
@[simp] theorem State.record_flash0 (die type : Nat) (fs : List (Nat × Nat)) : (s.record die type fs).flash0 = s.flash0 := rfl
@[simp] theorem State.record_flash1 (die type : Nat) (fs : List (Nat × Nat)) : (s.record die type fs).flash1 = s.flash1 := rfl
@[simp] theorem State.record_journal (die type : Nat) (fs : List (Nat × Nat)) : (s.record die type fs).journal = s.journal := rfl
@[simp] theorem State.record_keySlots (die type : Nat) (fs : List (Nat × Nat)) : (s.record die type fs).keySlots = s.keySlots := rfl
@[simp] theorem State.record_revoked (die type : Nat) (fs : List (Nat × Nat)) : (s.record die type fs).revoked = s.revoked := rfl
@[simp] theorem State.record_idKey (die type : Nat) (fs : List (Nat × Nat)) : (s.record die type fs).idKey = s.idKey := rfl
@[simp] theorem State.record_powerUps (die type : Nat) (fs : List (Nat × Nat)) : (s.record die type fs).powerUps = s.powerUps := rfl
@[simp] theorem State.record_rstN (die type : Nat) (fs : List (Nat × Nat)) : (s.record die type fs).rstN = s.rstN := rfl
@[simp] theorem State.record_pwrOk (die type : Nat) (fs : List (Nat × Nat)) : (s.record die type fs).pwrOk = s.pwrOk := rfl
@[simp] theorem State.record_thermLow (die type : Nat) (fs : List (Nat × Nat)) : (s.record die type fs).thermLow = s.thermLow := rfl
@[simp] theorem State.record_free (die type : Nat) (fs : List (Nat × Nat)) : (s.record die type fs).free = s.free := rfl

@[simp] theorem State.updCrown_crown (f : Crown → Crown) : (s.updCrown f).crown = f s.crown := rfl

/-- A hub after its own update. -/
@[simp] theorem State.hub_setHub_same (h : Nat) (v : Hub) : (s.setHub h v).hub h = v := tget_tset_same _ _ _ _

/-- A hub after another's update. -/
theorem State.hub_setHub_other (h j : Nat) (v : Hub) (n : j ≠ h) : (s.setHub h v).hub j = s.hub j := tget_tset_other _ _ _ _ _ n

/-- A hub after its own change. -/
@[simp] theorem State.hub_updHub_same (h : Nat) (f : Hub → Hub) : (s.updHub h f).hub h = f (s.hub h) := tget_tset_same _ _ _ _

/-- A hub after another's change. -/
theorem State.hub_updHub_other (h j : Nat) (f : Hub → Hub) (n : j ≠ h) : (s.updHub h f).hub j = s.hub j :=
  tget_tset_other _ _ _ _ _ n

/-- Hubs are not what a change of the crown touches. -/
@[simp] theorem State.hub_updCrown (h : Nat) (f : Crown → Crown) : (s.updCrown f).hub h = s.hub h := rfl

/-- Hubs are not what a change of a tile touches. -/
@[simp] theorem State.hub_updTile (h p : Nat) (f : Tile → Tile) : (s.updTile p f).hub h = s.hub h := rfl

/-- A tile die after its own change. -/
@[simp] theorem State.tile_updTile_same (p : Nat) (f : Tile → Tile) : (s.updTile p f).tile p = f (s.tile p) :=
  tget_tset_same _ _ _ _

/-- A tile die after another's change. -/
theorem State.tile_updTile_other (p q : Nat) (f : Tile → Tile) (n : q ≠ p) : (s.updTile p f).tile q = s.tile q :=
  tget_tset_other _ _ _ _ _ n

/-- Tiles are not what a change of the crown touches. -/
@[simp] theorem State.tile_updCrown (p : Nat) (f : Crown → Crown) : (s.updCrown f).tile p = s.tile p := rfl

/-- Reports and records touch no die. -/
@[simp] theorem State.tile_report (p die code : Nat) (fs : List (Nat × Nat)) (ty : Option Nat) :
    (s.report die code fs ty).tile p = s.tile p := rfl

/-- Reports and records touch no die. -/
@[simp] theorem State.hub_report (h die code : Nat) (fs : List (Nat × Nat)) (ty : Option Nat) :
    (s.report die code fs ty).hub h = s.hub h := rfl

/-- Reports and records touch no die. -/
@[simp] theorem State.tile_record (p die type : Nat) (fs : List (Nat × Nat)) : (s.record die type fs).tile p = s.tile p := rfl

/-- Reports and records touch no die. -/
@[simp] theorem State.hub_record (h die type : Nat) (fs : List (Nat × Nat)) : (s.record die type fs).hub h = s.hub h := rfl

/-- The mapping of logical tiles is the hubs' alone. -/
@[simp] theorem State.phys_updTile (t p : Nat) (f : Tile → Tile) : (s.updTile p f).phys t = s.phys t := rfl

/-- The mapping of logical tiles is the hubs' alone. -/
@[simp] theorem State.phys_updLtile (t u : Nat) (f : Tile → Tile) : (s.updLtile u f).phys t = s.phys t := rfl

/-- The mapping of logical tiles is the hubs' alone. -/
@[simp] theorem State.phys_updCluster (t u k : Nat) (f : Cluster → Cluster) : (s.updCluster u k f).phys t = s.phys t := rfl

/-- The mapping of logical tiles is the hubs' alone. -/
@[simp] theorem State.phys_updCrown (t : Nat) (f : Crown → Crown) : (s.updCrown f).phys t = s.phys t := rfl

/-- A logical tile after its own change. -/
@[simp] theorem State.ltile_updLtile_same (t : Nat) (f : Tile → Tile) : (s.updLtile t f).ltile t = f (s.ltile t) :=
  tget_tset_same _ _ _ _

/-- A cluster after its own change. -/
@[simp] theorem State.cluster_updCluster_same (t k : Nat) (f : Cluster → Cluster) :
    (s.updCluster t k f).cluster t k = f (s.cluster t k) := by
  unfold State.updCluster State.setCluster State.cluster
  rw [State.ltile_updLtile_same]
  exact tget_tset_same _ _ _ _

/-- Another cluster of the same tile. -/
theorem State.cluster_updCluster_other (t k j : Nat) (f : Cluster → Cluster) (n : j ≠ k) :
    (s.updCluster t k f).cluster t j = s.cluster t j := by
  unfold State.updCluster State.setCluster State.cluster
  rw [State.ltile_updLtile_same]
  exact tget_tset_other _ _ _ _ _ n

/-- A context after its own replacement. -/
@[simp] theorem Cluster.ctx_setCtx_same (c : Cluster) (x : Nat) (v : Ctx) : (c.setCtx x v).ctx x = v := tget_tset_same _ _ _ _

/-- Another context. -/
theorem Cluster.ctx_setCtx_other (c : Cluster) (x y : Nat) (v : Ctx) (n : y ≠ x) : (c.setCtx x v).ctx y = c.ctx y :=
  tget_tset_other _ _ _ _ _ n

/-- A port after its own change. -/
@[simp] theorem State.port_updPort_same (h m : Nat) (f : Port → Port) : (s.updPort h m f).port h m = f (s.port h m) := by
  unfold State.updPort State.port
  rw [State.hub_updHub_same]
  exact tget_tset_same _ _ _ _

end Sys2Proof.Machine
end

