-- ==== Sys2Proof/Laws/Thread.lean ====
section
/-! SUPPORT. What the issue of a thread instruction does, once for all of them (R141, R167, R176, R201): fetch and checks, the end
of an instruction, and the writes of vectors, scalars and predicates. -/
namespace Sys2Proof.Machine.Claims

/-- An instruction that passes its checks does what its effect says. -/
theorem issue_of_issued {op : Nat} {use : Word → Use} {i : Issue} {s : State} {e : TEnv} (body : TEnv → TRes)
    (h : issued op use i s = some e) : issue (· == op) use body i s = settle e (body e) := by
  unfold issued at h
  unfold issue
  simp only at h ⊢
  cases hf : (s.updCluster i.tile i.cluster fun c => c.strike i.upsets).fetch i.tile i.cluster i.ctx with
  | none => simp [hf] at h
  | some x =>
    obtain ⟨e', d⟩ := x
    simp only [hf] at h ⊢
    split at h
    · exact absurd h (by simp)
    · rename_i hc
      simp only [Bool.or_eq_true, not_or, bne_iff_ne, ne_eq, not_not, Bool.not_eq_true] at hc
      obtain ⟨⟨⟨h1, h2⟩, h3⟩, h4⟩ := hc
      simp only [Option.some.injEq] at h
      subst h
      simp [h1, h2, h3, h4]

/-- A change of a tile die that keeps its clusters keeps every cluster. -/
theorem cluster_updTile (s : State) (p t k : Nat) (f : Tile → Tile) (hf : ∀ x, (f x).clusters = x.clusters) :
    (s.updTile p f).cluster t k = s.cluster t k := by
  unfold State.cluster State.ltile Tile.cluster
  simp only [State.phys_updTile]
  by_cases hp : s.phys t = p
  · subst hp; rw [State.tile_updTile_same, hf]
  · rw [State.tile_updTile_other _ _ _ _ hp]

/-- A dross counter keeps every cluster. -/
@[simp] theorem cluster_tileDross (s : State) (p cls n t k : Nat) : (s.tileDross p cls n).cluster t k = s.cluster t k := by
  unfold State.tileDross
  split
  · rfl
  · exact cluster_updTile _ _ _ _ _ fun _ => rfl

/-- What a fetch answers: the state itself, the place named, and the context there. -/
theorem fetch_place {s : State} {t k c : Nat} {e : TEnv} {d : WordDec} (h : s.fetch t k c = some (e, d)) :
    e.s = s ∧ e.t = t ∧ e.k = k ∧ e.c = c ∧ e.x = { (s.cluster t k).ctx c with barWait := none } ∧
      (s.cluster t k).blocked ((s.cluster t k).ctx c) = false := by
  unfold State.fetch at h
  simp only at h
  split at h
  · exact absurd h (by simp)
  · rename_i hc
    simp only [Option.some.injEq, Prod.mk.injEq] at h
    obtain ⟨h, -⟩ := h
    subst h
    exact ⟨rfl, rfl, rfl, rfl, rfl, by simpa using hc⟩

/-- The environment of an issued instruction names the command's tile, cluster and context, and its context is the one there,
which runs. -/
theorem issued_place {op : Nat} {use : Word → Use} {i : Issue} {s : State} {e : TEnv} (h : issued op use i s = some e) :
    e.t = i.tile.val ∧ e.k = i.cluster.val ∧ e.c = i.ctx.val ∧
      e.x = { (e.s.cluster i.tile i.cluster).ctx i.ctx with barWait := none } := by
  unfold issued at h
  simp only at h
  cases hf : (s.updCluster i.tile i.cluster fun c => c.strike i.upsets).fetch i.tile i.cluster i.ctx with
  | none => simp [hf] at h
  | some x =>
    obtain ⟨e', d⟩ := x
    simp only [hf] at h
    obtain ⟨_, ht, hk, hc, hx, _⟩ := fetch_place hf
    split at h
    · exact absurd h (by simp)
    · simp only [Option.some.injEq] at h
      subst h
      refine ⟨ht, hk, hc, ?_⟩
      simp only [hx]
      split <;> simp

/-! ### The end of an instruction -/

/-- A change of one cluster, said of the whole state: only that cluster differs. -/
theorem updCluster_rest (s : State) (t k : Nat) (f : Cluster → Cluster) :
    (∀ j, j ≠ k → (s.updCluster t k f).cluster t j = s.cluster t j) ∧
    (∀ q, q ≠ s.phys t → (s.updCluster t k f).tile q = s.tile q) ∧
    (s.updCluster t k f).tile (s.phys t) =
      { s.tile (s.phys t) with clusters := ((s.updCluster t k f).tile (s.phys t)).clusters } ∧
    s.updCluster t k f = { s with tiles := (s.updCluster t k f).tiles } := by
  refine ⟨fun j hj => State.cluster_updCluster_other s t k j f hj, fun q hq => State.tile_updTile_other s _ q _ hq, ?_, rfl⟩
  unfold State.updCluster State.setCluster State.updLtile
  rw [State.tile_updTile_same]
  rfl

/-- What a trap does to its tile besides its context (R169, R473). -/
def trapMarks (s : State) (k c : Nat) (pc : BitVec 14) (cause : Nat) (x : Tile) : Tile :=
  { x with
    traps := if (tget {} x.traps k).valid then x.traps else
      tset x.traps k { valid := true, cause := BitVec.ofNat 8 cause, pc := pc, ctx := BitVec.ofNat 8 c
                       stepLo := BitVec.ofNat 32 s.stepNo }
    thrFlags := x.thrFlags ||| BitVec.ofNat 16 (2 ^ (4 * k + 2))
    dross := drossAdd x.dross 0x0B 1 }

/-- The state of a trap before its report: the context's stop, then the tile's marks. -/
theorem trap_tiles (s : State) (t k c : Nat) (pc : BitVec 14) (cause q : Nat) :
    (s.trap t k c pc cause).tile q =
      ((s.updCluster t k fun cl => cl.setCtx c { cl.ctx c with stopped := true }).updTile (s.phys t)
        (trapMarks s k c pc cause)).tile q := by
  have h1 : ∀ (u : State) (p : Nat), u.tileDross p 0x0B 1 = u.updTile p fun x => { x with dross := drossAdd x.dross 0x0B 1 } := by
    intro u p; unfold State.tileDross; rw [if_neg (by decide)]
  unfold State.trap
  simp only [h1]
  by_cases hq : q = s.phys t
  · subst hq
    rw [State.tile_report, State.tile_updTile_same, State.tile_updTile_same, State.tile_updTile_same]
    rfl
  · rw [State.tile_report, State.tile_updTile_other _ _ _ _ hq, State.tile_updTile_other _ _ _ _ hq, State.tile_updTile_other _ _ _ _ hq]

/-- A trap, said of the whole state: the context stops; the tile's trap registers, trap flags and traps counter and the crown's reports
change; nothing else does (R167, R169). -/
theorem trap_rest (s : State) (t k c : Nat) (pc : BitVec 14) (cause : Nat) :
    (s.trap t k c pc cause).cluster t k = (s.cluster t k).setCtx c { (s.cluster t k).ctx c with stopped := true } ∧
    (∀ j, j ≠ k → (s.trap t k c pc cause).cluster t j = s.cluster t j) ∧
    (∀ q, q ≠ s.phys t → (s.trap t k c pc cause).tile q = s.tile q) ∧
    (s.trap t k c pc cause).tile (s.phys t) = { s.tile (s.phys t) with
      clusters := ((s.trap t k c pc cause).tile (s.phys t)).clusters, dross := ((s.trap t k c pc cause).tile (s.phys t)).dross
      traps := ((s.trap t k c pc cause).tile (s.phys t)).traps
      thrFlags := ((s.trap t k c pc cause).tile (s.phys t)).thrFlags } ∧
    (s.trap t k c pc cause).crown = { s.crown with reports := (s.trap t k c pc cause).crown.reports } ∧
    s.trap t k c pc cause = { s with tiles := (s.trap t k c pc cause).tiles, crown := (s.trap t k c pc cause).crown } := by
  have hrest : (s.trap t k c pc cause).crown = { s.crown with reports := (s.trap t k c pc cause).crown.reports } ∧
      s.trap t k c pc cause = { s with tiles := (s.trap t k c pc cause).tiles, crown := (s.trap t k c pc cause).crown } := by
    have h1 : ∀ (u : State) (p : Nat), u.tileDross p 0x0B 1 = u.updTile p fun x => { x with dross := drossAdd x.dross 0x0B 1 } := by
      intro u p; unfold State.tileDross; rw [if_neg (by decide)]
    unfold State.trap
    simp only [h1]
    exact ⟨rfl, rfl⟩
  have hph : (s.trap t k c pc cause).phys t = s.phys t := by rw [hrest.2]; rfl
  have hcl : ∀ j, (s.trap t k c pc cause).cluster t j =
      (s.updCluster t k fun cl => cl.setCtx c { cl.ctx c with stopped := true }).cluster t j := by
    intro j
    unfold State.cluster State.ltile
    rw [hph, trap_tiles, State.tile_updTile_same]
    rfl
  refine ⟨?_, ?_, ?_, ?_, hrest.1, hrest.2⟩
  · rw [hcl, State.cluster_updCluster_same]
  · intro j hj; rw [hcl, State.cluster_updCluster_other _ _ _ _ _ hj]
  · intro q hq
    rw [trap_tiles, State.tile_updTile_other _ _ _ _ hq, (updCluster_rest s t k _).2.1 q hq]
  · rw [trap_tiles, State.tile_updTile_same, (updCluster_rest s t k _).2.2.1]
    rfl

/-- The context that an instruction leaves when it ends: one more completed, at its jump or the next index; where it falls past the
last index it stays there and is stopped (R166, R201). -/
def afterEnd (e : TEnv) (x : Ctx) (jump : Option Nat) : Ctx :=
  let past := jump = none ∧ e.x.pc.toNat = 16383
  { x.completed with
    pc := match jump with | some j => BitVec.ofNat 14 j | none => if e.x.pc.toNat = 16383 then e.x.pc else e.x.pc + 1
    stopped := if past then true else x.stopped }

/-- The state of an instruction's end before any trap. -/
def ended (e : TEnv) (x : Ctx) (inv ovf : Bool) : State :=
  e.s.updCluster e.t e.k fun cl =>
    { cl.setCtx e.c x with launches := noteLaunch cl.launches e.x.launch e.c e.x.insns inv ovf }

/-- The context before any trap. -/
def beforeTrap (e : TEnv) (x : Ctx) (jump : Option Nat) : Ctx :=
  { x.completed with
    pc := match jump with | some j => BitVec.ofNat 14 j | none => if e.x.pc.toNat = 16383 then e.x.pc else e.x.pc + 1 }

/-- The end of an instruction, by cases: it goes on, or falls past the last index and traps. -/
theorem finish_eq (e : TEnv) (x : Ctx) (jump : Option Nat) (inv ovf : Bool) :
    finish e e.s x jump inv ovf =
      if jump = none ∧ e.x.pc.toNat = 16383 then
        (ended e (beforeTrap e x jump) inv ovf).trap e.t e.k e.c e.x.pc pcRange
      else ended e (beforeTrap e x jump) inv ovf := by
  unfold finish ended beforeTrap
  cases jump with
  | some j => simp
  | none => by_cases h : e.x.pc.toNat = 16383 <;> simp [h]

/-- The end of an instruction that has changed nothing but its context: what the context is, what its launch collects, and that
nothing else changes (R165, R166, R201). -/
theorem finish_spec {i : Issue} {e : TEnv} (ht : e.t = i.tile.val) (hk : e.k = i.cluster.val) (hc : e.c = i.ctx.val)
    (x : Ctx) (jump : Option Nat) (inv ovf : Bool) :
    ctxAt (finish e e.s x jump inv ovf) i = afterEnd e x jump ∧
    notes i e (finish e e.s x jump inv ovf) inv ovf ∧
    onlyContext i e (finish e e.s x jump inv ovf) := by
  rw [finish_eq]
  have base : ∀ y, ((ended e y inv ovf).cluster i.tile i.cluster) =
      { (e.s.cluster i.tile i.cluster).setCtx i.ctx y with
        launches := noteLaunch (e.s.cluster i.tile i.cluster).launches e.x.launch i.ctx e.x.insns inv ovf } := by
    intro y
    unfold ended
    rw [ht, hk, hc, State.cluster_updCluster_same]
  have rest := fun y => updCluster_rest e.s i.tile i.cluster fun cl =>
    { cl.setCtx i.ctx y with launches := noteLaunch cl.launches e.x.launch i.ctx e.x.insns inv ovf }
  have hend : ∀ y, ended e y inv ovf = e.s.updCluster i.tile i.cluster fun cl =>
      { cl.setCtx i.ctx y with launches := noteLaunch cl.launches e.x.launch i.ctx e.x.insns inv ovf } := by
    intro y; unfold ended; rw [ht, hk, hc]
  split
  · rename_i past
    obtain ⟨hj, hp⟩ := past
    obtain ⟨c1, c2, c3, c4, c5, c6⟩ := trap_rest (ended e (beforeTrap e x jump) inv ovf) i.tile i.cluster i.ctx e.x.pc pcRange
    have hph : (ended e (beforeTrap e x jump) inv ovf).phys i.tile = e.s.phys i.tile := by rw [hend]; rfl
    rw [base] at c1
    rw [ht, hk, hc]
    refine ⟨?_, ?_, ?_, ?_, ?_, ?_, ?_, ?_, ?_, ?_⟩
    · unfold ctxAt
      rw [c1]
      show (Cluster.setCtx _ _ _).ctx _ = _
      rw [Cluster.ctx_setCtx_same]
      show { ((e.s.cluster i.tile i.cluster).setCtx i.ctx (beforeTrap e x jump)).ctx i.ctx with stopped := true } = _
      rw [Cluster.ctx_setCtx_same]
      unfold afterEnd beforeTrap
      simp [hj, hp]
    · unfold notes; rw [c1]; rfl
    · intro c hcne
      rw [c1]
      show (Cluster.setCtx _ _ _).ctx _ = _
      rw [Cluster.ctx_setCtx_other _ _ _ _ hcne]
      exact Cluster.ctx_setCtx_other _ _ _ _ hcne
    · rw [c1]; rfl
    · intro k hkne
      rw [c2 k hkne, hend, (rest _).1 k hkne]
    · intro q hq
      rw [c3 q (by rwa [hph]), hend, (rest _).2.1 q hq]
    · have := c4
      rw [hph] at this
      rw [this, hend, (rest _).2.2.1]
    · intro hf; exact absurd hp hf
    · rw [c5, hend]; rfl
    · rw [c6, hend]; rfl
  · rename_i past
    refine ⟨?_, ?_, ?_, ?_, ?_, ?_, ?_, ?_, ?_, ?_⟩
    · unfold ctxAt
      rw [base]
      show (Cluster.setCtx _ _ _).ctx _ = _
      rw [Cluster.ctx_setCtx_same]
      unfold afterEnd beforeTrap
      simp only [past, if_false]
      cases jump <;> rfl
    · unfold notes; rw [base]
    · intro c hcne
      rw [base]
      exact Cluster.ctx_setCtx_other _ _ _ _ hcne
    · rw [base]; rfl
    · intro k hkne
      rw [hend, (rest _).1 k hkne]
    · intro q hq
      rw [hend, (rest _).2.1 q hq]
    · rw [hend, (rest _).2.2.1]
    · intro _
      rw [hend, (rest _).2.2.1]
      exact ⟨rfl, rfl, rfl, rfl⟩
    · rw [hend]; rfl
    · rw [hend]; rfl

/-! ### Writes of registers -/

/-- A lane write, seen lane by lane. -/
theorem laneAt_writeLane (x : Ctx) (r i q l : Nat) (v : W32) (hi : i < 16) (hl : l < 16) :
    laneAt (writeLane x r i v) q l = if q = r ∧ l = i then v else laneAt x q l := by
  unfold laneAt writeLane
  by_cases h : q = r ∧ l = i
  · rw [if_pos h, h.1, h.2]; exact tget_tput_same _ _ _ _
  · rw [if_neg h]; exact tget_tput_other _ _ _ _ _ (by omega)

/-- Lane writes touch the vectors only. -/
theorem foldl_writeLane_rest (L : List Nat) (x : Ctx) (r : Nat) (f : Nat → W32) :
    L.foldl (fun x i => writeLane x r i (f i)) x = { x with v := (L.foldl (fun x i => writeLane x r i (f i)) x).v } := by
  induction L generalizing x with
  | nil => rfl
  | cons a t ih => rw [List.foldl_cons, ih]; rfl

/-- Lane writes over a list of lanes, seen lane by lane. -/
theorem laneAt_foldl (L : List Nat) (x : Ctx) (r q l : Nat) (f : Nat → W32) (hL : ∀ i ∈ L, i < 16) (hl : l < 16) :
    laneAt (L.foldl (fun x i => writeLane x r i (f i)) x) q l = if q = r ∧ l ∈ L then f l else laneAt x q l := by
  induction L generalizing x with
  | nil => simp
  | cons a t ih =>
    rw [List.foldl_cons, ih _ fun i hi => hL i (by simp [hi]), laneAt_writeLane _ _ _ _ _ _ (hL a (by simp)) hl]
    by_cases h1 : q = r <;> by_cases h2 : l ∈ t <;> by_cases h3 : l = a <;> simp [h1, h2, h3]

/-- The active lanes are lanes. -/
theorem mem_lanes (e : TEnv) (l : Nat) : l ∈ e.lanes ↔ l < 16 ∧ e.active l = true := by simp [TEnv.lanes]

/-- A vector write, seen lane by lane (R133). -/
theorem laneAt_writeVec (e : TEnv) (x : Ctx) (r q l : Nat) (f : Nat → W32) (hl : l < 16) :
    laneAt (e.writeVec x r f) q l = if q = r ∧ e.active l = true then f l else laneAt x q l := by
  unfold TEnv.writeVec
  rw [laneAt_foldl _ _ _ _ _ _ (fun i hi => ((mem_lanes e i).1 hi).1) hl]
  simp [mem_lanes, hl]

/-- A vector write touches the vectors only. -/
theorem writeVec_rest (e : TEnv) (x : Ctx) (r : Nat) (f : Nat → W32) :
    e.writeVec x r f = { x with v := (e.writeVec x r f).v } := foldl_writeLane_rest _ _ _ _

/-- A predicate write, read back: p0 reads ones, the register written its value, any other what it held (R133). -/
theorem readPred_writePred (x : Ctx) (c d : Nat) (v : W16) (hc : 48 ≤ c) (hd : 48 ≤ d) :
    readPred (writePred x d v) c = if c = 48 then 0xFFFF else if c = d then v else readPred x c := by
  unfold readPred writePred
  by_cases h : c = 48
  · simp [h]
  · by_cases g : d = 48
    · subst g; simp [h]
    · by_cases k : c = d
      · subst k; simp [h]
      · simp only [h, g, k, if_false]
        exact tget_tput_other _ _ _ _ _ (by omega)

/-- A predicate write touches the predicates only. -/
theorem writePred_rest (x : Ctx) (c : Nat) (v : W16) : writePred x c v = { x with p := (writePred x c v).p } := by
  unfold writePred; split <;> rfl

/-- Bits laid out from the low end, read back, and their bound. -/
theorem testBit_layout (f : Nat → Bool) (n : Nat) :
    (List.range n).foldl (fun m i => m + b2n (f i) * 2 ^ i) 0 < 2 ^ n ∧
    ∀ l, ((List.range n).foldl (fun m i => m + b2n (f i) * 2 ^ i) 0).testBit l = (decide (l < n) && f l) := by
  induction n with
  | zero => simp
  | succ n ih =>
    obtain ⟨hb, ht⟩ := ih
    rw [List.range_succ, List.foldl_append, List.foldl_cons, List.foldl_nil]
    have hle : b2n (f n) ≤ 1 := by unfold b2n; split <;> omega
    constructor
    · have : b2n (f n) * 2 ^ n ≤ 1 * 2 ^ n := Nat.mul_le_mul_right _ hle
      rw [Nat.pow_succ]; omega
    · intro l
      rw [Nat.add_comm, Nat.mul_comm, Nat.testBit_two_pow_mul_add _ hb]
      by_cases h : l < n
      · have : l < n + 1 := by omega
        simp [h, ht, this]
      · by_cases g : l = n
        · subst g; unfold b2n; cases f l <;> simp
        · have : ¬ l < n + 1 := by omega
          have h2 : l - n = (l - n - 1) + 1 := by omega
          rw [if_neg h, h2, Nat.testBit_succ]
          have h3 : b2n (f n) / 2 = 0 := by omega
          rw [h3]; simp [this]

/-- A predicate whose active lanes are written, lane by lane (R133, R179). -/
theorem lanesOver_written (e : TEnv) (old : W16) (f : Nat → Bool) :
    lanesOver e old f (BitVec.ofNat 16 ((List.range 16).foldl (fun n i =>
      n + b2n (if e.active i then f i else old.getLsbD i) * 2 ^ i) 0)) := by
  intro l hl
  rw [BitVec.getLsbD_ofNat, (testBit_layout (fun i => if e.active i then f i else old.getLsbD i) 16).2]
  simp [hl]

/-! ### Shapes of instructions -/

/-- A command whose instruction passes its checks answers what its effect says. -/
theorem thread_of_issued {op use i s e} (body : TEnv → TRes) (h : issued op use i s = some e) :
    thread op use body i s = .next (settle e (body e)) := congrArg _ (issue_of_issued body h)

/-- An instruction that writes one vector register on its active lanes. -/
theorem done_vec {op use i s e} (h : issued op use i s = some e) (f : Nat → W32) (inv ovf : Bool)
   (x : Ctx) (hx : x = e.writeVec e.x e.w.dst f) :
   vectorIs i e (settle e (e.done x inv ovf)) f ∧ notes i e (settle e (e.done x inv ovf)) inv ovf ∧
   keepsSPD i e (settle e (e.done x inv ovf)) ∧
   goesOn i e (settle e (e.done x inv ovf)) ∧ onlyContext i e (settle e (e.done x inv ovf)) := by
  obtain ⟨ht, hk, hc, hxx⟩ := issued_place h
  have fs := finish_spec ht hk hc x none inv ovf
  have hs : settle e (e.done x inv ovf) = finish e e.s x none inv ovf := rfl
  rw [hs]
  obtain ⟨f1, f2, f3⟩ := fs
  subst hx
  refine ⟨?_, f2, ?_, ?_, f3⟩
  · intro q l hl
    rw [f1]
    show laneAt (e.writeVec e.x e.w.dst f) q l = _
    exact laneAt_writeVec _ _ _ _ _ _ hl
  · unfold keepsSPD
    rw [f1, writeVec_rest]
    exact ⟨rfl, rfl, rfl⟩
  · unfold goesOn
    rw [f1, writeVec_rest]
    exact ⟨rfl, rfl⟩

/-- Rounded lanes are a vector write with the conditions of the active lanes. -/
theorem writeRounded_eq (e : TEnv) (f : Nat → Rounded) : e.writeRounded f =
   e.done (e.writeVec e.x e.w.dst fun l => BitVec.ofNat 32 (f l).bits) (anyLane e fun l => (f l).inv) (anyLane e fun l => (f l).ovf) := by
  unfold TEnv.writeRounded TEnv.writeVec anyLane
  simp only [List.foldl_map, List.any_map, TEnv.lanes, List.any_filter]
  rfl

/-- The NaN rule of the derivatives. -/
theorem derivative_eq (e : TEnv) (l : Nat) (r : Rounded) : derivative e l r = nanOr (e.num 0 l) (e.num 1 l) r := by
  unfold derivative nanOr
  by_cases h1 : e.num 0 l = .nan <;> by_cases h2 : e.num 1 l = .nan <;> simp [h1, h2] <;> rfl

/-- Positive, as a comparison. -/
theorem posit (y : Num) : (0 < y.cmp Num.zero) = (positive y = true) := by simp [positive]

/-- An instruction that only writes registers of its context. -/
theorem done_any {op use i s e} (h : issued op use i s = some e) (x : Ctx) :
   ctxAt (settle e (e.done x)) i = afterEnd e x none ∧ onlyContext i e (settle e (e.done x)) := by
  obtain ⟨ht, hk, hc, hxx⟩ := issued_place h
  have fs := finish_spec ht hk hc x none false false
  exact ⟨fs.1, fs.2.2⟩

/-- An instruction that writes one predicate. -/
theorem done_pred {op use i s e} (h : issued op use i s = some e) (d : 48 ≤ e.w.dst) (v : W16) :
   predicateIs i e (settle e (e.done (writePred e.x e.w.dst v))) v ∧ goesOn i e (settle e (e.done (writePred e.x e.w.dst v))) ∧
   onlyContext i e (settle e (e.done (writePred e.x e.w.dst v))) := by
  obtain ⟨f1, f3⟩ := done_any h (writePred e.x e.w.dst v)
  refine ⟨?_, ?_, f3⟩
  · unfold predicateIs
    rw [f1]
    refine ⟨by simp [readPred], ?_, ?_⟩
    · intro c h1 h2
      have := readPred_writePred e.x c e.w.dst v (by omega) d
      rw [if_neg (by omega)] at this
      rw [← this]; rfl
    · rw [writePred_rest]; exact ⟨rfl, rfl, rfl⟩
  · unfold goesOn
    rw [f1, writePred_rest]
    exact ⟨rfl, rfl⟩

/-- An instruction that writes one scalar. -/
theorem done_scalar {op use i s e} (h : issued op use i s = some e) (d : 32 ≤ e.w.dst) (v : W64) :
   scalarIs i e (settle e (e.done (writeScalar e.x e.w.dst v))) v ∧ goesOn i e (settle e (e.done (writeScalar e.x e.w.dst v))) ∧
   onlyContext i e (settle e (e.done (writeScalar e.x e.w.dst v))) := by
  obtain ⟨f1, f3⟩ := done_any h (writeScalar e.x e.w.dst v)
  refine ⟨?_, ?_, f3⟩
  · unfold scalarIs
    rw [f1]
    refine ⟨?_, rfl, rfl, rfl⟩
    intro r
    show tget 0 (tput 0 e.x.s (e.w.dst - 32) v) r = _
    by_cases h : r = e.w.dst - 32
    · subst h; simp
    · rw [if_neg h, tget_tput_other _ _ _ _ _ h]
  · unfold goesOn
    rw [f1]
    exact ⟨rfl, rfl⟩

/-- An issued instruction has passed its checks and is of its opcode. -/
theorem issued_enc {op use i s e} (h : issued op use i s = some e) : encodingCauses (use e.w) e.w = [] ∧ e.w.opc = op := by
  unfold issued at h
  simp only at h
  cases hf : (s.updCluster i.tile i.cluster fun c => c.strike i.upsets).fetch i.tile i.cluster i.ctx with
  | none => simp [hf] at h
  | some x =>
    obtain ⟨e', d⟩ := x
    simp only [hf] at h
    split at h
    · exact absurd h (by simp)
    · rename_i hc
      simp only [Bool.or_eq_true, not_or, bne_iff_ne, ne_eq, not_not, Bool.not_eq_true] at hc
      simp only [Option.some.injEq] at h
      subst h
      exact ⟨hc.1.2, hc.1.1.2⟩

/-- A word that passes its checks has a good destination. -/
theorem enc_dst {u : Use} {w : Word} (h : encodingCauses u w = []) : dstCauses u.dst u.n w.dst = [] := by
  unfold encodingCauses at h
  simp only [List.append_eq_nil_iff] at h
  exact h.1.1.1.2

/-- A word that passes its checks has a format its opcode takes. -/
theorem enc_fmt {u : Use} {w : Word} (h : encodingCauses u w = []) : w.fmt ∈ u.fmts := by
  unfold encodingCauses at h
  simp only [List.append_eq_nil_iff] at h
  by_contra g
  have := h.1.1.1.1.1.1.2
  simp [g] at this

/-- A good predicate destination. -/
theorem dst_pred {n c} (h : dstCauses .pred n c = []) : 48 ≤ c ∧ c < 56 := by
  unfold dstCauses at h
  simp [Kind.takes] at h
  by_contra g
  split at h
  · simp at h
  · simp at h; omega

/-- A good scalar destination. -/
theorem dst_sreg {n c} (h : dstCauses .sreg n c = []) : 32 ≤ c ∧ c < 48 := by
  unfold dstCauses at h
  simp [Kind.takes] at h
  by_contra g
  split at h
  · simp at h
  · simp at h; omega

end Sys2Proof.Machine.Claims
end

