-- ==== Sys2Proof/Tests/Slice0.lean ====
section
/-! SUPPORT. The model's own tests: WellFormed refuses an ill-formed term for each of its checks; worked examples of the spec on small
states; and for each statement with hypotheses a concrete state and operands that meet them. -/
namespace Sys2Proof.Tests

set_option Elab.async false

open Sys2Proof Sys2Proof.Machine Sys2Proof.Machine.Claims

/-! ### Well-formed commands -/

theorem test_wf_istore_word : (Instr.iadd { tile := 0, cluster := 0, ctx := 0, upsets := { istore := [(16384, 0)] } }).wf = false := by decide
theorem test_wf_istore_bit : (Instr.iadd { tile := 0, cluster := 0, ctx := 0, upsets := { istore := [(16383, 72)] } }).wf = false := by decide
theorem test_wf_istore_last : (Instr.iadd { tile := 0, cluster := 0, ctx := 0, upsets := { istore := [(16383, 71)] } }).wf = true := by decide
theorem test_wf_ls_word : (Instr.load { tile := 0, cluster := 0, upsets := { ls := [(1048576, 0)] } }).wf = false := by decide
theorem test_wf_latch_bit : (Instr.load { tile := 0, cluster := 0, upsets := { latch := [(16383, 22)] } }).wf = false := by decide
theorem test_wf_mv_latch : (Instr.runN { tile := 0, region := 0, mvLatch := [(1, 8, 0, 0)] }).wf = false := by decide
theorem test_wf_mv_upsets : (Instr.runN { tile := 0, region := 0, upsets := { ls := [(0, 72)] } }).wf = false := by decide
theorem test_wf_engine_upsets : (Instr.runDesc { tile := 0, engine := 0, upsets := { ls := [(0, 72)] } }).wf = false := by decide
theorem test_wf_sector_aligned : (Instr.fettleRead 0 { sectors := [(16, 0, 1)] }).wf = false := by decide
theorem test_wf_sector_symbol : (Instr.fence 0 { sectors := [(32, 36, 1)] }).wf = false := by decide
theorem test_wf_sector_last : (Instr.fence 0 { sectors := [(32, 35, 1)] }).wf = true := by decide
theorem test_wf_frame_length : (Instr.program { tag := 0, payload := List.replicate 65537 0 }).wf = false := by
  show decide ((List.replicate 65537 (0 : Byte)).length ≤ 65536) = false
  rw [List.length_replicate]; decide
theorem test_wf_frame_longest : (Instr.program { tag := 0, payload := List.replicate 65536 0 }).wf = true := by
  show decide ((List.replicate 65536 (0 : Byte)).length ≤ 65536) = true
  rw [List.length_replicate]; decide
theorem test_wf_flit_length : (Instr.idle { hub := 0, port := 0 } { type := 0, body := List.replicate 4097 0 }).wf = false := by
  show decide ((List.replicate 4097 (0 : Byte)).length ≤ 4096) = false
  rw [List.length_replicate]; decide
theorem test_wf_group_hub : (Instr.restartPrepared [(8, 0, false, 0)]).wf = false := by decide
theorem test_wf_group_chan : (Instr.restartPrepared [(7, 14, false, 0)]).wf = false := by decide
theorem test_wf_eeprom : (Instr.rstNRelease { eeprom := some (List.replicate 15 0) }).wf = false := by decide
theorem test_wf_revisions : (Instr.selfTestDone { hubRev := List.replicate 9 0 }).wf = false := by decide

/-! ### Small states -/

/-- An instruction word by its fields (R171). -/
def word (opc dst s1 s2 s3 pred fmt mod : Nat) : W64 :=
  BitVec.ofNat 64 (opc * 2 ^ 56 + dst * 2 ^ 50 + s1 * 2 ^ 44 + s2 * 2 ^ 38 + s3 * 2 ^ 32 + pred * 2 ^ 28 + fmt * 2 ^ 24 + mod)

/-- One tile whose first cluster is given. -/
def oneCluster (c : Cluster) : State := { tiles := [(0, { clusters := [(0, c)] })] }

/-- Context 0 of the first cluster at a word in its instruction store. -/
def running (w : W64) (x : Ctx) : State := oneCluster { istore := [(x.pc.toNat, w)], ctxs := [(0, { x with running := true })] }

/-- The issue of that context. -/
def first : Issue := { tile := 0, cluster := 0, ctx := 0 }

/-- The context after a command. -/
def ctxOf (o : Out) : Ctx := match o with
  | .next t => ctxAt t first
  | .fault _ => {}
  | .refused _ => {}

/-! ### Words and thread instructions -/

/-- The worked example of R176: VFMA.F32 v3, v1, v2.BF16, s4 ?p2. -/
theorem test_word_vfma : Word.of 0x130C10A420000008 =
    { opc := 0x13, dst := 3, s1 := 1, s2 := 2, s3 := 36, neg := false, pred := 2, fmt := 0, mod := 8 } := by decide +kernel
/-- IADD v1, v2, v3 in I32, written out: OPC 0x20, DST 1, SRC1 2, SRC2 3, FMT 3. -/
theorem test_word_iadd : word 0x20 1 2 3 0 0 3 0 = 0x200420C003000000 := by decide +kernel
/-- R181: results wrap modulo 2^32. -/
theorem test_iadd_wraps : laneAt (ctxOf (exec (.iadd first) (running 0x200420C003000000 { v := [(32, 0xFFFFFFFF), (48, 2)] }))) 1 0 = 1 := by
  decide +kernel
/-- R181: a shift count is the low 5 bits of src2: 33 shifts by 1. -/
theorem test_ishl_count : laneAt (ctxOf (exec (.ishl first) (running (word 0x26 1 2 3 0 0 3 0) { v := [(32, 3), (48, 33)] }))) 1 0 = 6 := by decide +kernel
/-- R181: IMIN is signed. -/
theorem test_imin_signed : laneAt (ctxOf (exec (.imin first) (running (word 0x29 1 2 3 0 0 3 0) { v := [(32, 0xFFFFFFFF), (48, 2)] }))) 1 0 =
    0xFFFFFFFF := by decide +kernel

/-- A word of an opcode whose encoding breaks no rule (R171 to R174, R177 to R201). -/
def wordFor (op : Nat) : W64 :=
  let three := [0x13, 0x69, 0x6D]
  let one := [0x16, 0x17, 0x1A, 0x50, 0x52, 0x60, 0x61, 0x62, 0x63, 0x64, 0x65, 0x66]
  if 0x20 ≤ op ∧ op ≤ 0x2A then word op 1 2 3 0 0 3 0
  else if op = 0x2C then word op 1 2 0 0 0 3 0
  else if op = 0x2B then word op 49 2 3 0 0 3 0xD00000
  else if op = 0x18 then word op 49 2 3 0 0 0 0x500000
  else if op = 0x19 then word op 1 2 3 49 0 0 0
  else if 0x30 ≤ op ∧ op ≤ 0x38 then word op 33 34 35 0 0 0 0
  else if op = 0x39 ∨ op = 0x3A then word op 33 0 0 0 0 1 0xFFFFFF
  else if op = 0x3B then word op 49 34 0 0 0 1 0x2FFFFF
  else if 0x40 ≤ op ∧ op ≤ 0x42 then word op 49 50 51 0 0 0 0
  else if op = 0x43 ∨ op = 0x45 then word op 49 50 0 0 0 0 0
  else if op = 0x44 then word op 49 0 0 0 0 0 0xFFFF
  else if op = 0x50 ∨ op = 0x52 then word op 1 2 0 0 0 1 0
  else if op = 0x51 then word op 33 2 0 0 0 7 0
  else if 0x70 ≤ op ∧ op ≤ 0x72 then word op 33 0 0 0 0 0 0x300
  else if op = 0x73 then word op 33 0 4 0 0 0 0x300
  else if op = 0x80 then word op 1 33 0 0 0 0 0
  else if op = 0x81 then word op 0 33 1 0 0 0 0
  else if op = 0x82 then word op 1 33 2 0 0 0 0
  else if op = 0x83 then word op 0 33 2 3 0 0 0
  else if op = 0x84 then word op 49 33 0 0 0 0 0
  else if op = 0x85 then word op 0 33 49 0 0 0 0
  else if op = 0x90 then word op 1 33 0 0 0 0 0
  else if op = 0x91 then word op 0 33 1 0 0 0 0
  else if op = 0x92 then word op 1 33 2 0 0 0 0
  else if op = 0x93 ∨ op = 0x94 then word op 0 33 2 3 0 0 0
  else if op = 0xA0 then word op 0 33 34 0 0 0 0
  else if op = 0xA1 ∨ op = 0xB0 then word op 0 33 0 0 0 0 0
  else if op = 0xB1 then word op 0 0 0 0 0 0 0x050001
  else if op = 0xB2 then word op 0 0 0 0 0 0 7
  else if op = 0xC0 then word op 33 0 0 0 0 0 0
  else if op = 0xC1 ∨ op = 0xC2 then word op 1 0 0 0 0 0 0
  else if op = 0xC3 then word op 49 33 0 0 0 0 0
  else if op = 0xE0 ∨ op = 0xE1 then word op 0 0 0 0 0 0 0x3FFF
  else if op = 0xE2 then word op 0 33 0 0 0 0 0
  else if op = 0xE3 then word op 0 0 0 0 0 0 0
  else if op = 0xE4 then word op 0 0 0 0 0 0 5
  else if op ∈ three then word op 1 2 3 4 0 0 0
  else if op ∈ one then word op 1 2 0 0 0 0 0
  else word op 1 2 3 0 0 0 0
/-- Whether the first context of a state issues an opcode in an environment that meets a test. -/
def issues (op : Nat) (s : State) (p : TEnv → Bool) : Bool :=
  match threadRows.find? fun r => r.1 == op with
  | some r => match issued op r.2.1 first s with
    | some e => p e
    | none => false
  | none => false
/-- The context at the word of an opcode. -/
def atOp (op : Nat) (x : Ctx) : State := running (wordFor op) x
/-- Every thread instruction issues, with the words above, in a context that holds nothing (the hypotheses of the clauses over `issued`). -/
theorem witness_threads : ∀ r ∈ threadRows, issues r.1 (atOp r.1 {}) (fun _ => true) = true := by decide +kernel
theorem witness_Compares : Machine.Num.fin true 0 0 ≠ .nan ∧ (∃ w : Word, w.mod < 2 ^ 24 ∧ 5 < w.mod / 2 ^ 20) ∧
    (∃ w : Word, w.mod < 2 ^ 24 ∧ 0xE ≤ w.mod / 2 ^ 20) := ⟨by decide, ⟨Word.of 0x600000, by decide +kernel⟩, ⟨Word.of 0xE00000, by decide +kernel⟩⟩
theorem witness_Predicates : (usePred2.fmts = [0] ∧ usePred2.pred = false ∧ encodingCauses usePred2 (Word.of (wordFor 0x40)) = []) ∧
    (useInt.fmts = [3] ∧ encodingCauses useInt (Word.of (wordFor 0x20)) = []) := by decide +kernel
theorem witness_Scalars : (let w := Word.of (word 0x30 33 34 35 0 0 2 0); w.fmt ≠ 0 ∧ w.fmt ≠ 1) ∧ (Word.of (word 0x39 33 0 0 0 0 0 0)).fmt ≠ 1 := by
  decide +kernel
theorem witness_Draws : ∀ r ∈ [(0xC0, 1), (0xC1, 4), (0xC2, 8), (0xC3, 4), (0x52, 4)],
    issues r.1 (atOp r.1 { draws := BitVec.ofNat 32 (0xFFFFFFFF - r.2) }) (fun e => decide (e.x.draws.toNat + r.2 = 0xFFFFFFFF)) = true := by
  decide +kernel
/-- The last bytes of a local store, in range and aligned. -/
theorem witness_LocalLoads :
    issues 0x80 (atOp 0x80 { s := [(1, 0x7FFFC0)] }) (fun e => lsCauses e.lsAddr (lsBytes e.fmt) (lsAlign e.fmt) == [] &&
      (lsRead e.cl e.lsAddr (lsBytes e.fmt)).bad == none) = true ∧
    issues 0x82 (atOp 0x82 { s := [(1, 0x7FFFFC)] }) (fun e => e.idxLsCauses == [] &&
      (List.range 16).all fun l => (lsRead e.cl (e.idxAddr l) (elemSize e.w.fmt)).bad == none) = true ∧
    issues 0x84 (atOp 0x84 { s := [(1, 0x7FFFFE)] }) (fun e => lsCauses e.lsAddr 2 2 == [] &&
      (lsRead e.cl e.lsAddr 2).bad == none) = true := by decide +kernel
theorem witness_LocalStores : ∀ r ∈ storeRows, issues r.1 (atOp r.1 { s := [(1, 0x7FFFC0)] }) (fun e => r.2.2.2.1 e == [] &&
    (r.2.2.2.2 e).all fun w => (lsWords w.1 w.2.length).all fun x => !(lsDecode e.cl x).2.bad) = true := by decide +kernel
/-- Room for the last request of a context, and none for one more. -/
theorem witness_MemoryRequests : ∀ r ∈ memoryRows, ∀ n ∈ [0, 16], issues r.1 (atOp r.1 { s := [(1, 0x40)], outstanding := n }) (fun e =>
    r.2.2.2.1 e == [] && (decide (e.cl.outstanding + (r.2.2.2.2.1 e).length ≤ 512 ∧ e.x.outstanding + (r.2.2.2.2.1 e).length ≤ 16) == (n == 0))) =
    true := by decide +kernel
/-- A step of a device whose mould set has one tile mould. -/
def scheduled (m : TileMould) (s : State) : State :=
  { s with loaded := { s.loaded with sets := [{ tiles := [((0, 0, 0), m)] }] }, crown := { s.crown with openStep := some {} } }
theorem witness_KicksAndCounts :
    let d : Desc := { tkick := true, srcKind := 1, dstKind := 0, rowElems := 8, kickLaunch := 3, kickLidx := 1 }
    let x : Ctx := { running := true, launch := 2, lidx := 1, s := [(2, 8)] }
    let s := fun w => scheduled { descs := [d] } (oneCluster {
      istore := [(0, wordFor 0xA0)], launches := [{ ordinal := 2, pos := 3 }], ctxs := [(0, { x with writes := w })] })
    let pour : Entry PourItem := .item {} { adj := true, n := 4 }
    let mv : Entry MvItem := .item {} { adj := true, nrow := 4 }
    (∀ w ∈ [0, 1], issues 0xA0 (s w) (fun e =>
      e.kickCauses (e.s.tileMould e.t) (e.scalar e.w.s1).toNat (e.scalar e.w.s2).toNat == [] && e.x.writes == w) = true) ∧
    issues 0xA1 (scheduled { pours := [[pour]] } (atOp 0xA1 { s := [(1, 4)] })) (fun e => !bit e.w.mod 12 &&
      psetnCauses (adjPours (lget [] (e.s.tileMould e.t).pours e.k)) e.cl.arr.adj (bits e.w.mod 11 0) (e.scalar e.w.s1).toNat == []) = true ∧
    issues 0xA1 (scheduled { mvs := [[mv]] } (running (word 0xA1 0 33 0 0 0 0 0x1000) { s := [(1, 4)] })) (fun e => bit e.w.mod 12 &&
      psetnCauses (adjMvs (lget [] (e.s.tileMould e.t).mvs (e.k / 2))) ((e.s.ltile e.t).mv (e.k / 2)).adj (bits e.w.mod 11 0)
        (e.scalar e.w.s1).toNat == []) = true := by decide +kernel
theorem witness_Synchronisation :
    (∀ w ∈ [0, 1], issues 0xB1 (atOp 0xB1 { writes := w }) (fun e =>
      decide (e.s.token 0 (bits e.w.mod 23 16) + bits e.w.mod 7 0 ≤ 0xFFFFFFFF) && e.x.writes == w) = true) ∧
    (([0, 1] : List W64).all fun v => issues 0xB0 (atOp 0xB0 { s := [(1, v)] }) (fun e => decide ((e.scalar e.w.s1 +
      BitVec.ofNat 64 (e.w.mod % 2 ^ 16)).setWidth 32 ≤ BitVec.ofNat 32 (e.s.token 0 (bits e.w.mod 23 16))) == (v == 0))) = true := by decide +kernel
theorem witness_Control : (([1, 2] : List W64).all fun v => issues 0xE2 (atOp 0xE2 { s := [(1, v)] }) (fun e => e.scalar e.w.s1 == v)) = true ∧
    issues 0xE1 (running (word 0xE1 0 0 0 0 1 0 0x10000) {}) (fun e => bit e.w.mod 16 && readPred e.x (48 + e.w.pred) == 0) = true := by decide +kernel
/-- What a context of a state fetches. -/
def fetches (s : State) (p : TEnv → WordDec → Bool) : Bool :=
  match (struckAt first s).fetch first.tile first.cluster first.ctx with
  | some (e, d) => p e d
  | none => false
/-- R202: no thread instruction has opcode 0x00. -/
theorem witness_Traps : fetches (running 0 {}) (fun e d => !d.bad && threadRows.all fun r => decide (e.w.opc ≠ r.1)) = true := by decide +kernel
theorem witness_IssueChecks : (struckAt first (oneCluster {})).fetch first.tile first.cluster first.ctx = none ∧
    fetches (oneCluster { ctxs := [(0, { running := true })], istoreErr := [(0, [0, 1])] }) (fun _ d => d.bad) = true ∧
    fetches (running (word 0x20 49 1 2 0 0 3 1) {}) (fun e d => !d.bad && e.w.opc == 0x20 &&
      lowest (encodingCauses useInt e.w) == some illegalField) = true := by decide +kernel

/-! ### Lists of a tile -/

/-- The first cluster, region and engine. -/
def a0 : ClusterAt := { tile := 0, cluster := 0 }
def m0 : MvAt := { tile := 0, region := 0 }
def e0 : EngineAt := { tile := 0, engine := 0 }
theorem witness_Launches :
    let it : LaunchItem := { count := 256, args := [7] }
    let s := struck a0 (scheduled { launches := [[.item {} it]] } {})
    let r := (s.ltile a0.tile).run (6 + a0.cluster)
    let c : Cluster := { ctxs := [(0, {})], launches := [{ count := 256, inv := some (0, 5) }] }
    (listReady s a0.tile (6 + a0.cluster) {} ∧ (lget [] (s.tileMould a0.tile).launches a0.cluster)[r.pos]? = some (.item {} it) ∧
      (∀ j, j < it.count → ((s.cluster a0.tile a0.cluster).ctx (it.first + j)).running = false) ∧ it.riser = 0xFF) ∧
    (∃ l, c.launches[0]? = some l ∧ (struck a0 (oneCluster c)).cluster a0.tile a0.cluster = c ∧ l.writes = 0 ∧
      ∀ j, j < l.count → let x := c.ctx (l.first + j); x.launch ≠ l.ordinal ∨ x.running = false ∧ x.stopped = false) := by
  refine ⟨?_, _, rfl, by decide +kernel, by decide +kernel, by decide +kernel⟩; unfold listReady; decide +kernel
theorem witness_Repeats :
    let marks : List (Entry LaunchItem) := [.rbegin {} 2 false 0, .item {} {}, .rend {}]
    let s := scheduled { launches := [marks] } {}
    let z := scheduled { launches := [.rbegin {} 0 false 0 :: marks.drop 1] } {}
    let w := scheduled { launches := [marks] } { tiles := [(0, { lists := [(6, { pos := 2, stack := [(0, 0)] })] })] }
    listReady s 0 6 {} ∧ ((s.tileMould 0).marks 6)[((s.ltile 0).run 6).pos]? = some (.rbegin {} 2 false 0) ∧
    listReady z 0 6 {} ∧ ((z.tileMould 0).marks 6) = [.rbegin {} 0 false 0] ++ [.item {} ()] ++ .rend {} :: [] ∧ Closed [(.item {} () : Entry Unit)] ∧
    listReady w 0 6 {} ∧ ((w.tileMould 0).marks 6)[((w.ltile 0).run 6).pos]? = some (.rend {}) ∧ ((w.ltile 0).run 6).stack = [(0, 0)] := by
  unfold listReady
  refine ⟨?_, ?_, ?_, ?_, .item _ _ _ .nil, ?_⟩ <;> decide +kernel
theorem witness_Repeats_pour :
    let it : Entry PourItem := .item {} {}
    let marks := fun (c : Nat) => [it, .rbegin {} c false 0, it, .rend {}]
    let s := scheduled { pours := [marks 2] } {}
    let z := scheduled { pours := [marks 0] } {}
    let w := scheduled { pours := [marks 2] } { tiles := [(0, { lists := [(0, { pos := 2, stack := [(1, 0)] })] })] }
    pourMayPass s 0 0 1 {} ∧ (s.pourList 0 0)[1]? = some (.rbegin {} 2 false 0) ∧
    pourMayPass z 0 0 1 {} ∧ (z.pourList 0 0)[1]? = some (.rbegin {} 0 false 0) ∧ (z.pourList 0 0).drop 2 = [it] ++ .rend {} :: [] ∧ Closed [it] ∧
    pourMayPass w 0 0 3 {} ∧ (w.pourList 0 0)[3]? = some (.rend {}) ∧ ((w.ltile 0).run 0).stack = [(1, 0)] := by
  unfold pourMayPass
  refine ⟨?_, ?_, ?_, ?_, ?_, .item _ _ _ .nil, ?_⟩ <;> decide +kernel
/-- A step of a device whose mould set has one hub mould. -/
def hubbed (m : HubMould) (s : State) : State :=
  { s with loaded := { s.loaded with sets := [{ hubs := [((0, 0, 0), m)] }] }, crown := { s.crown with openStep := some {} } }
theorem witness_Repeats_hub :
    let it : Entry HubItem := .item {} { body := .tier (0, 0, 0) }
    let marks := fun (c : Nat) => [it, .rbegin {} c false 0, it, .rend {}]
    let made := fun (c : Nat) (r : ListRun) => hubbed { lists := [[], [], [], [], [], marks c] } { hubs := [(0, { lists := [(5, r)] })] }
    (∀ c ∈ [0, 2], hubMayPass (made c {}) 0 5 1 {} ∧ ((made c {}).hubList 0 5)[1]? = some (.rbegin {} c false 0)) ∧
    ((made 0 {}).hubList 0 5).drop 2 = [it] ++ .rend {} :: [] ∧ Closed [it] ∧
    (let w := made 2 { pos := 2, stack := [(1, 1)] };
      hubMayPass w 0 5 3 {} ∧ (w.hubList 0 5)[3]? = some (.rend {}) ∧ (w.hubRun 0 5).stack = [(1, 1)]) ∧
    (let w := hubbed { lists := [[.rbegin {} 2 false 0, .rend {}]] } {}; hubMayPass w 0 0 0 {}) := by
  unfold hubMayPass
  refine ⟨?_, ?_, .item _ _ _ .nil, ?_⟩ <;> decide +kernel
theorem witness_TokenSignals :
    let s : State := { tiles := [(0, { tokens := [(3, 0xFFFFFFFE)] })], crown := { signals := [(48, 3, 1)] } }
    s.token 0 3 + 1 ≤ 0xFFFFFFFF ∧ 0xFFFFFFFF < s.token 0 3 + 2 ∧ s.hubToken 0 3 + 1 ≤ 0xFFFFFFFF ∧
    s.crown.signals[0]? = some (48, 3, 1) ∧
    0xFFFFFFFF < ({ hubs := [(0, { tokens := [(3, 0xFFFFFFFF)] })] } : State).hubToken 0 3 + 1 := by decide +kernel
/-- A cluster whose pour list holds one item. -/
def pouring (it : PourItem) (c : Cluster) : State := struck a0 (scheduled { pours := [[.item {} it]] } (oneCluster c))
/-- The item that stands on its path. -/
def itemAt (s : State) (it : PourItem) : PourAt := match s.nextItem 0 0 (pathOf it.code) with
  | some n => n.at'
  | none => { inst := {}, head := {}, raw := it, item := it }
theorem witness_ArrayPasses :
    let load : PourItem := { code := 0, x := 2, y := 3 }
    let s := pouring load {}
    (itemStarts a0 s 0 (itemAt s load) load 1 ∧
      ((s.cluster 0 0).rdRows load.a load.a.format 2 3).1.bad = none) ∧
    (∀ n ∈ [1, 2], let it : PourItem := { code := n, n := 2, adj := true }
      let s := pouring it { arr := { nr := 2, nc := 3, loads := 1, adj := [(0, 1)] } }
      itemStarts a0 s n (itemAt s it) it 1 ∧
      ((s.cluster 0 0).rdRows it.a it.a.format 1 3).1.bad = none) ∧
    (let it : PourItem := { code := 3, x := 2, y := 3 }
      let s := pouring it { arr := { loads := 1 } }
      itemStarts a0 s 3 (itemAt s it) it 1 ∧
      ((s.cluster 0 0).rdRows it.a it.a.format 1 2).1.bad = none ∧ ((s.cluster 0 0).rdRows it.b it.b.format 1 3).1.bad = none) := by
  unfold itemStarts; decide +kernel
theorem witness_ArrayMoves : ∀ n ∈ [4, 5, 6, 7], let it : PourItem := { code := n, n := 1, x := 2, y := 3 }
    let s := pouring it { arr := { loads := 1 } }
    itemStarts a0 s n (itemAt s it) it 1 ∧
    ((drainWrites s (s.cluster 0 0).arr it).all fun w => (lsWords w.1 w.2.length).all fun x => !(lsDecode (s.cluster 0 0) x).2.bad) = true ∧
    ∀ j ∈ [0, 1], (preloadRead (s.cluster 0 0) it j).bad = none := by
  unfold itemStarts; decide +kernel

/-! ### Lists of a tile -/

theorem witness_PourEnds :
    let s := struck a0 (scheduled {} (oneCluster { arr := { loads := 1, latched := 1, pours := [{ pour := 1 }] } }))
    let c := s.cluster a0.tile a0.cluster
    (oldestPour c.arr.pours = some { pour := 1 } ∧ c.arr.stopped = false ∧ c.arr.prologue = {} ∧ s.pourOver a0.tile a0.cluster 1 = true ∧
      s.pourListDone a0.tile a0.cluster = true ∧ c.arr.parityOk = true) ∧
    (s.crown.openStep.isSome = true ∧ c.arr.prologueDone = false ∧ c.arr.stopped = false ∧ s.pourOver a0.tile a0.cluster 0 = true) := by
  decide +kernel
theorem witness_PourEnds_filler :
    let it : PourItem := { code := 0 }
    let h : Head := { wait := some (0, 1), fillerOk := true }
    let s₀ : State := { oneCluster {} with tiles := [(0, { cuff := { floorReq := true } })] }
    let m : TileMould := { pours := [[.item h it]], filler := [some (0, 32768)] }
    let s := struck a0 { s₀ with crown := { openStep := some {} }, loaded := { sets := [{ tiles := [((0, 0, 0), m)], step := { loadFloor := 1 } }] } }
    let n : NextItem := { at' := itemAt s it, nr := (s.cluster 0 0).arr.nr, nc := (s.cluster 0 0).arr.nc, skipped := [] }
    let c := s.cluster a0.tile a0.cluster
    s.nextItem a0.tile a0.cluster 0 = some n ∧ lget none (s.tileMould a0.tile).filler a0.cluster = some (0, 32768) ∧
    s.crown.openStep.isSome = true ∧ c.arr.stopped = false ∧ n.at'.head.fillerOk = true ∧
    s.waitMet a0.tile n.at'.head n.at'.inst.i = false ∧ (∀ y ∈ n.skipped, pathOf y.1.code ≠ 1) ∧
    s.mouldSet.step.loadFloor ≠ 0 ∧ (s.ltile a0.tile).cuff.floorReq = true ∧ c.arr.filler = false ∧ c.arr.latched = 0 ∧
    (c.rdRows { stride := 256, fmt := 1, addr := 0 } .bf16 1 128).1.bad = none ∧ (c.rdRows { stride := 256, fmt := 1, addr := 32768 } .bf16 1 128).1.bad = none := by
  decide +kernel
theorem which_cluster : mvCluster 0 = 0 ∨ mvCluster 0 = 1 := by
  unfold mvCluster; cases Config.mvSecond 0
  · left; rfl
  · right; rfl
/-- An MV list of one item, over clusters that hold nothing. -/
def mving (it : MvItem) (m : MvSt) (d : Desc) : State :=
  struckMv m0 (scheduled { mvs := [[.item {} it]], descs := [d] } { tiles := [(0, { mvs := [(0, m)] })] })
theorem witness_MvMoves : ∀ n ∈ [0, 3, 4], let it : MvItem := { code := n, k := 2 }
    let s := mving it {} {}
    mvStarts m0 s n {} it ∧ it.set < 2 ∧ it.ncol ≤ 8 ∧ it.k ≤ 16384 ∧ it.ob + it.count ≤ 2048 ∧
    s.checkSource m0.tile (mvCluster m0.region) it.reads = .ok ∧ s.mvAt {} (((s.ltile m0.tile).run (4 + m0.region)).count 0) it = it ∧
    ((s.cluster m0.tile (mvCluster m0.region)).rdRows it.a it.a.format it.ncol it.k).1.bad = none ∧
    ((accWrites s (halfAt s m0) it).all fun w => (lsWords w.1 w.2.length).all fun x =>
      !(lsDecode (s.cluster m0.tile (mvCluster m0.region)) x).2.bad) = true ∧
    ((s.cluster m0.tile (mvCluster m0.region)).rd it.a.addr 32).bad = none := by
  unfold mving struckMv mvStarts listReady
  rcases which_cluster with h | h <;> simp only [show mvCluster (m0.region : Nat) = _ from h] <;> decide +kernel
theorem witness_MvRuns : ∀ n ∈ [1, 2], let it : MvItem := { code := n, k := 2, nrow := 2, adj := true }
    let s := mving it { adj := [(0, 1)], intake := [(0, (List.replicate 8 1, []))] } {}
    let w := mving it { adj := [(0, 1)], intake := [(0, (List.replicate 7 1, []))] } {}
    mvStarts m0 s n {} it ∧ s.rowsInForce m0.tile m0.region 0 it = some 1 ∧
    ((halfAt s m0).takeWeights {} 0 (1 * 2)).isSome = true ∧ (halfAt s m0).badSegment it 2 = none ∧
    0 < it.seg ∧ it.seg ≤ 512 ∧ it.ncol ≤ 8 ∧ it.ob + 2 ≤ 2048 ∧
    mvStarts m0 w n {} it ∧ w.rowsInForce m0.tile m0.region 0 it = some 1 ∧ (halfAt w m0).takeWeights {} 0 (1 * 2) = none := by
  unfold mving struckMv mvStarts listReady
  rcases which_cluster with h | h <;> simp only [show mvCluster (m0.region : Nat) = _ from h] <;> decide +kernel
/-- The first tile with one engine that has something to do. -/
def engined (m : TileMould) (g : Engine) (s : State) : State := struckEngine e0 (scheduled m { s with tiles := [(0, { engines := [(0, g)] })] })
theorem witness_StreamRuns : ∀ d ∈ [({ srcKind := 0, dstKind := 0, rowElems := 8, dst := 256 } : Desc), { srcKind := 1, dstKind := 3 }, { srcKind := 2, dstKind := 1 },
      { srcKind := 0, dstKind := 2 }],
    let s := engined { descs := [d], streams := [[.item {} 0]] } { kicks := [{ desc := 0, count := 1 }] } {}
    listReady s e0.tile (10 + e0.engine) {} ∧
    (lget [] (s.tileMould e0.tile).streams e0.engine)[((s.ltile e0.tile).run (10 + e0.engine)).pos]? = some (.item {} 0) ∧
    ((s.ltile e0.tile).engine e0.engine).runs = [] ∧ ((s.ltile e0.tile).engine e0.engine).kicks = [{ desc := 0, count := 1 }] ∧
    s.crown.openStep.isSome = true ∧ s.checkSource e0.tile (lget {} (s.tileMould e0.tile).descs 0).cluster (s.descLocal e0.tile 0 0) = .ok ∧
    ∀ n ∈ [0, 1], d.dstKind ≤ 3 ∧ runPieces s d 0 n 0 ≠ [] ∧ s.credit (e0.tile / 6) (s.descAddr d.dstKind d.dstSel d.dst d.dstBank 0) = true ∧ (∀ x ∈ runPieces s d 0 n 0, ((s.cluster e0.tile 0).rd x.src x.len).bad = none) ∧
      ((runPieces s d 0 n 0).flatMap fun x => wrapped x.dst (x.clip ((s.cluster e0.tile 0).rd x.src x.len).bytes)).all (fun w =>
        (lsWords w.1 w.2.length).all fun x => !(lsDecode (s.cluster e0.tile 0) x).2.bad) = true := by
  unfold listReady; decide +kernel
theorem witness_StreamCompletions :
    let c : Chunk := { len := 4 }
    let r : DescRun := { srcKind := 1, chunks := [c], next := 1 }
    let q : DescRun := { srcKind := 2, elems := 1, chunks := [c] }
    let made := fun (r : DescRun) (d : List Elem) => engined {} { runs := [r] } { hubs := [(0, { eps := [(0, { data := d })] })] };
    (let s := made r [];
      let g := (s.ltile e0.tile).engine e0.engine
      g.runs[0]? = some r ∧ g.run? r.id = some r ∧ r.srcKind ≠ 2 ∧ r.chunks.length ≤ r.next ∧ r.writes = 0) ∧
    (let s := made { r with next := 0 } [];
      ((s.ltile e0.tile).engine e0.engine).runs[0]? = some { r with next := 0 } ∧ ({ r with next := 0 } : DescRun).next < r.chunks.length) ∧
    (let z : DescRun := { r with next := 0, dstKind := 2, got := [(0, [5, 0, 0, 0])] };
      let s := made z [];
      let g := (s.ltile e0.tile).engine e0.engine
      g.runs[0]? = some z ∧ g.run? z.id = some z ∧ z.srcKind ≠ 2 ∧ z.dstKind = 2 ∧ z.next < z.chunks.length ∧ z.got.length = z.chunks.length ∧
      s.credit (e0.tile / 6) z.dst = true ∧ z.writes = 0 ∧ ∀ x ∈ g.runs, x.id = z.id → x = z) ∧
    (let s := made q [{ bits := 5 }];
      let g := (s.ltile e0.tile).engine e0.engine
      g.runs[0]? = some q ∧ g.run? q.id = some q ∧ q.srcKind = 2 ∧ q.taken = false ∧ q.elems ≤ ((s.hub (e0.tile / 6)).ep q.src).data.length ∧
      q.next = 0 ∧ q.writes = 0 ∧ q.chunks ≠ [] ∧ q.dstKind ≤ 3 ∧ (∀ x ∈ g.runs, x.id = q.id → x = q) ∧
      (wrapped 0 (c.clip [5, 0, 0, 0])).all (fun w => (lsWords w.1 w.2.length).all fun x => !(lsDecode (s.cluster e0.tile 0) x).2.bad) = true) ∧
    (let s := made q [];
      ((s.hub (e0.tile / 6)).ep q.src).data.length < q.elems ∧ 0 < q.chunks.length ∧ q.next = 0) := by decide +kernel

/-! ### Hubs -/

/-- A state whose memory, flash and tiles list nothing is sound. -/
theorem sound_of (s : State) (h1 : s.mem = []) (h2 : s.memErr = []) (h3 : s.poison = []) (h4 : s.flash = []) (h5 : s.tiles = [])
    (h6 : s.revoked.length = 4) : s.Sound where
  memory := by rw [h1]; rfl
  flash := by rw [h4]; rfl
  fuses := h6
  plates := fun a _ => by rw [h1, h2, h3]; exact ⟨rfl, rfl, rfl⟩
  engines := fun p e r h => by
    have : (s.tile p) = {} := by unfold State.tile; rw [h5]; rfl
    rw [this] at h; cases h
/-- A device with the first hub as given. -/
def oneHub (x : Hub) : State := { hubs := [(0, x)], revoked := [false, false, false, false] }
theorem sound_oneHub (x : Hub) : (oneHub x).Sound := sound_of _ rfl rfl rfl rfl rfl rfl
/-- A write request and a scatter-add. -/
def wr : Req := { kind := .write [some 1], addr := 32 }
def addReq : Req := { kind := .add true 1 0 0 0 }
/-- What holds of an empty hub and of the first holds of every hub of a device that has touched no other. -/
theorem every_hub (p : Hub → Prop) (h₀ : p {}) (s : State) (x : Hub) (hs : s.hubs = [(0, x)]) (hx : p x) : ∀ h, p (s.hub h) := by
  intro h
  unfold State.hub
  rw [hs]
  unfold tget
  split
  · exact hx
  · exact h₀
theorem quiet_oneHub (s : State) (x : Hub) (hs : s.hubs = [(0, x)]) (h1 : x.slots = []) (h2 : x.ingress = []) (h3 : x.sramErr = [])
    (h4 : x.resps = []) : quiet s :=
  every_hub (fun x => x.slots = [] ∧ x.ingress = [] ∧ x.sramErr = [] ∧ ∀ y ∈ x.resps, y.req.agent ≠ .own) ⟨rfl, rfl, rfl, fun _ h => nomatch h⟩
    s x hs ⟨h1, h2, h3, fun y h => by rw [h4] at h; cases h⟩
theorem clean_oneHub (s : State) (x : Hub) (hs : s.hubs = [(0, x)]) (hx : x.sramErr = []) : sramClean s :=
  every_hub (fun x => x.sramErr = []) rfl s x hs hx
theorem witness_SorterAcceptance :
    let s := oneHub { ingress := [(0, [wr])], passed := [(0, 64)] }
    let a := fun (n : Nat) (f : Nat) => ({ ingress := [(0, [addReq])], adds := List.replicate n {}, fences := f } : Hub)
    let log := fun (x : Hub) (size : Nat) => { oneHub x with loaded := { placement := { hubs := [{ spill := (0, size) }] } } }
    (s.hub 0).nextQueue = some 0 ∧ tget [] (s.hub 0).ingress 0 = wr :: [] ∧ wr.isAdd = false ∧
    (a 0 0).nextQueue = some 0 ∧ tget [] (a 0 0).ingress 0 = [addReq] ∧ (a 0 0).fences ≤ 0 ∧ ¬ 16384 ≤ (a 0 0).adds.length ∧
    16384 ≤ (a 16384 0).adds.length ∧ (log (a 16384 0) 0x40000).spillPlace 0 1 = some 0 ∧ 0 < (a 0 1).fences ∧
    (log (a 16384 0) 0x3FFFF).spillPlace 0 1 = none ∧
    ((oneHub { a 0 0 with adds := [{ addr := 4 }], sramErr := [(sramKey 1 2, [0, 1])] }).readSram 0 1 fun w => decide (0 ≤ w ∧ w < 3)).2 = true := by
  decide +kernel
theorem witness_SorterService : ∀ r ∈ [wr, { kind := .read 64, addr := 0 }, { kind := .rewrite }, { kind := .fettle }],
    let s := struckHub 0 {} (oneHub { slots := [r.slot], validHbm := [(0, true)] })
    (s.hub 0).pick (bankQueue (.hbm 0 (if r = wr then 1 else 0) 0)) = some 0 ∧ (s.hub 0).slots[0]? = some r.slot ∧
    r.slot.left = r.sectorList ∧ r.slot.got = [] ∧ r.slot.left.Nodup ∧ (∀ q ∈ r.slot.left, sectorStores s (s.hub 0) q) ∧
    (s.readSector (sectorOf r.addr)).2.2 = false ∧ r.addr % 32 = 0 ∧ s.plateValid r.addr = true ∧ s.memOk r.addr = true := by
  unfold sectorStores; decide +kernel
theorem witness_SorterService_clean (r : Req) : sramClean (struckHub 0 {} (oneHub { slots := [r.slot], validHbm := [(0, true)] })) :=
  clean_oneHub _ _ rfl rfl
/-- An upset of one bit, and one of two, in the last word of the map-out list that its SRAM key can name. -/
theorem witness_SorterService_sram : ∀ e ∈ [[0], [0, 1]], let s := oneHub { sramErr := [(sramKey 2 0xFFFFFF, e)] }
    (s.hub 0).sramErr = [(sramKey 2 0xFFFFFF, e)] ∧ (2 < 3 ∧ 0xFFFFFF < 2 ^ 24) ∧
    (∀ k ∈ (s.hub 0).sramErr.map Prod.fst, k / 2 ^ 24 = 2 → decide (k % 2 ^ 24 = 5) = false) := by decide +kernel
theorem witness_SorterService_sound (x : Hub) : (struckHub 0 {} (oneHub x)).Sound := sound_oneHub x
theorem witness_SorterService_fettle :
    let s := oneHub { slots := [({ kind := .fettle } : Req).slot], validHbm := [(0, true)] }
    let t := struckHub 0 {} { s with memErr := [(0, [(0, 1), (1, 1)])] }
    (addrHome 0) = some (0, false, 0) ∧ ((t.readSector 0).2.2 = true ∨ (t.readSector 0).2.1 = 2) := by decide +kernel
theorem witness_MemoryResponses :
    let req : Req := { agent := .thread 0 0 0 3 0 (some (.regs 31 1 0xFFFF)), kind := .read 64 }
    let x : Ctx := { launch := 3, running := true }
    let d : DescRun := { chunks := [{ len := 32 }, { len := 32, src := 32, dst := 32 }] }
    let b := List.replicate 32 1
    let rs : List Resp := [{ req := req, data := some (List.replicate 64 1) },
      { req := { req with agent := .thread 0 0 0 3 0 (some (.lane 1 15 4)) }, data := some [1, 2, 3, 4] },
      { req := { req with agent := .thread 0 0 0 3 0 none }, accepted := true },
      { req := { req with agent := .engine 0 0 0 0 false }, data := some b }, { req := { req with agent := .engine 0 0 0 1 false }, data := some b },
      { req := { req with agent := .engine 0 0 0 0 true }, accepted := true }, { req := { req with agent := .listRead 0 0 4 }, data := some b },
      { req := { req with agent := .thread 0 0 0 3 0 (some (.lane 1 14 4)) } }]
    let s : State := { hubs := [(0, { resps := rs })], tiles := [(0, { clusters := [(0, { ctxs := [(0, x)] })], engines := [(0, { runs := [d], started := 1 })] })] }
    let g := (s.ltile 0).engine 0
    (s.hub 0).resps.length = 8 ∧ (s.cluster 0 0).ctx 0 = x ∧ x.launch = 3 ∧ (List.replicate 64 (1 : Byte)).length = 64 * 1 ∧
    (∀ p ∈ [[1], [1, 1]], let y := { x with pend := p, got := [(1, 14, some (7 : W32))] }
      (1 ∈ y.pend.erase 1 ↔ p = [1, 1]) ∧ ((y.got ++ [(1, 15, some 8)]).map fun g => g.2.1).Nodup) ∧
    g.run? 0 = some d ∧ 1 ≠ d.next ∧ d.dstKind ≠ 2 ∧ (∀ p ∈ d.got, p.1 ≠ d.next) ∧ 0 = d.next ∧ d.got = [] ∧ d.chunks[0]? = some { len := 32 } ∧
    (∀ y ∈ g.runs, y.id = d.id → y = d) ∧
    (wrapped 0 (({ len := 32 } : Chunk).clip b)).all (fun w => (lsWords w.1 w.2.length).all fun x => !(lsDecode (s.cluster 0 0) x).2.bad) = true := by
  decide +kernel
theorem witness_MemoryResponses_words : ∀ w ∈ [[], List.replicate 4 0x0101010101010101],
    let s := scheduled { words := [w] } {}
    let new := unpackBits 64 (32 / 8) (leNat (List.replicate 32 1))
    ((lget [] (s.tileMould 0).words 0).take new.length = new ↔ w ≠ []) ∧ ∃ e ∈ s.mouldSet.tiles, e.1 = (s.role, s.cls, 0) := by decide +kernel
theorem witness_HubUpkeep :
    let fence : HubItem := { body := .fence 0 1 0 }
    let s := struckHub 0 {} (hubbed { lists := [[.item {} fence]] } (oneHub { adds := [{ addr := 4, v := 2 }] }))
    let x := s.hub 0
    s.hubMarker 0 0 = some (.item {} fence) ∧ s.crown.rebuild = false ∧ x.spill.length + (if x.adds = [] then 0 else 1) ≤ 64 ∧
    (match s.mergeRuns 0 0 x.spill.length with | .ok m => !(m.readRuns 0 (m.hub 0).spill).2 | .fault _ => false) = true ∧
    s.markerSent 0 0 = true ∧ (∀ a ∈ x.adds ++ x.spilled, a.epoch = 0 → a.addr % 4 = 0 ∧ s.memOk a.addr = true ∧
      (s.readSector (sectorOf a.addr)).2.2 = false ∧ ∀ z ∈ x.slots, a.addr / 32 ∉ z.left) := by decide +kernel
theorem witness_HubUpkeep_clean (m : HubMould) (x : Hub) (h : x.sramErr = []) : sramClean (struckHub 0 {} (hubbed m (oneHub x))) :=
  clean_oneHub _ x rfl h
theorem witness_HubUpkeep_clear :
    let item : HubItem := { body := .plateClear false 0x2FFFFFF 1 }
    let s := hubbed { lists := [[], [], [], [], [], [.item {} item]] } (oneHub { slots := [wr.slot] })
    ((s.hubWindow 0 5).find? fun w => match w.item.body with | .plateClear _ _ _ => true | _ => false) =
      some { inst := {}, head := {}, item := item } ∧ (0x2FFFFFF + 1) * 4096 ≤ hbmSlice ∧
    ∀ z ∈ (s.hub 0).slots, ∀ q ∈ z.left, 32 * q + 32 ≤ sliceAddr 0 false (0x2FFFFFF * 4096) := by decide +kernel
theorem witness_HubUpkeep_fettle :
    let p : Placement := { hubs := [{ ranges := [{ kind := 1, base := 0, size := 8192 }] }] }
    let made := fun n => struckHub 0 {} { oneHub { hbmStacks := 4, validHbm := [(1, true)], fetCursor := n } with loaded := { placement := p } };
    (let s := made 0; (s.hub 0).fetEnable = true ∧ s.power.mitten = false ∧ (s.hub 0).hbmStacks ≠ 0 ∧
      s.fettleNext 0 (s.hub 0).fetCursor = some 4096) ∧
    (let s := made 8192; s.fettleNext 0 (s.hub 0).fetCursor = none ∧ s.fettleNext 0 0 = some 4096) := by decide +kernel
theorem sound_hubbed (m : HubMould) (x : Hub) : (hubbed m (oneHub x)).Sound := sound_of _ rfl rfl rfl rfl rfl rfl
/-- Whether a masked write meets no uncorrectable sector in memory. -/
def storable (s : State) (a : Nat) (m : List (Option Byte)) : Bool :=
  (sectorsOf a m.length).all fun x => s.memOk x && !(s.readSector x).2.2
def readable (s : State) (a n : Nat) : Bool := (sectorsOf a n).all fun x => (addrHome x).isSome && !(s.readSector x).2.2
theorem witness_ReductionNodes :
    let z : NodeSlot := { primary := 3 }
    let b : NodeSlot := { primary := 4, backup := 5, bkp := true }
    let w : NodeWords := { slots := [b] }
    let it : HubItem := { body := .node w, elems := 8 }
    let s := hubbed { lists := [[], [.item {} it]] } (oneHub {})
    let n : NodeRun := { elems := 2, w := { slots := [z, z] } }
    let u := oneHub { nodes := [n, { n with w := { n.w with outWire := 2 } }], eps := [(3, { data := [{ bits := 0x3F800000 }] })] };
    (s.hubWindow 0 1 = [{ inst := {}, head := {}, item := it }] ∧ ((s.hub 0).nodes.filter fun n => !n.done).length < 64 ∧
      (s.hub 0).chunkBuffers + 4 * w.backed ≤ 256) ∧
    (∀ k ∈ [0, 1], ∃ m, (u.hub 0).nodes[k]? = some m ∧ nodeReady u 0 m) ∧
    (let m : NodeRun := { n with elems := 0 }; m.done = false ∧ m.stopped = false ∧ (oneHub { nodes := [m] } |>.hub 0).firstOf m = true ∧ m.elems ≤ m.next) ∧
    (({ n with block := [{ main := .inf false, second := .inf false }] } : NodeRun).block[0]?).isSome = true ∧
    ∀ chunks ∈ [[], [({ slot := 0, chunk := 0 } : ChunkSt)]], let q : NodeRun := { n with w := w, chunks := chunks }
      let s := oneHub { nodes := [q], eps := [(4, { data := [{}, {}] })] }
      (s.hub 0).nodes[0]? = some q ∧ q.w.slots[0]? = some b ∧ q.stopped = false ∧
      min (chunkLen b.wire) (q.elems - 0 * chunkLen b.wire) = 2 ∧ 2 ≤ ((s.hub 0).ep 4).data.length ∧
      (s.hub 0).firstCopy q 0 0 (chunkLen b.wire) = true := by
  refine ⟨?_, ?_, ?_, ?_, ?_⟩
  · decide +kernel
  · intro k hk
    simp only [List.mem_cons, List.not_mem_nil, or_false] at hk
    rcases hk with rfl | rfl <;> exact ⟨_, rfl, by unfold nodeReady; decide +kernel⟩
  · decide +kernel
  · decide +kernel
  · decide +kernel
theorem witness_UpdateItems_recipe (n : UpdRun) (x m v r c : W32) : ∃ u m' v', recipeIs n x m v r c u m' v' := by
  unfold recipeIs; split <;> exact ⟨_, _, _, rfl, rfl, rfl⟩
theorem witness_UpdateItems :
    let w : UpdWords := { recipe := 2, cols := 2, lrt := (0, 0), sec := (0, 4096), nrm := (0, 8192) }
    let it : HubItem := { body := .update w, elems := 4, addr := 16384 }
    let s := hubbed { lists := [[], [], [.item {} it]] } (oneHub { validHbm := [(0, true)] })
    let good := { s with mem := [(0, 1)] }
    (∀ u ∈ [s, good], u.hubWindow 0 2 = [{ inst := {}, head := {}, item := it }] ∧ (u.hub 0).upds.length < 64 ∧ scaleOk 0x3F800000 = true ∧
      u.crown.rebuild = false ∧ readable u 0 8 = true ∧ readable u 8 (16 * memLe u 0 8) = true ∧ readable u 4096 8 = true) ∧
    (1 ≤ memLe good 0 8 ∧ memLe good 0 8 ≤ 4096 ∧ memLe good 0 8 = 1) ∧ ¬ 1 ≤ memLe s 0 8 := by decide +kernel
theorem witness_UpdateItems_quiet (m : HubMould) (x : Hub) (h : x.slots = [] ∧ x.ingress = [] ∧ x.sramErr = [] ∧ x.resps = []) (mem : List Host.Cell) :
    quiet { hubbed m (oneHub x) with mem := mem } := quiet_oneHub _ x rfl h.1 h.2.1 h.2.2.1 h.2.2.2
theorem witness_UpdateItems_element : ∀ r ∈ [0, 1, 2, 3], ∀ i ∈ [0, 1],
    let n : UpdRun := { w := { recipe := r, cols := 2 }, elems := 2, next := i, masters := 4096, mom := 8192, sec := 12288, col := 16384, wc := 20480
                        epIn := 0, fmt := 1 }
    let s := hubbed {} (oneHub { upds := [n, { n with pos := 1, epIn := 9 }, { n with pos := 2, next := 2 }], eps := [(0, { data := [{}, {}] })] })
    (s.hub 0).upds[0]? = some n ∧ n.stopped = false ∧ n.rebuild = false ∧ i < n.elems ∧ ((s.hub 0).ep n.epIn).data = {} :: [{}] ∧
    s.tracing = false ∧ s.crown.rebuild = false ∧ n.w.recipe ≤ 3 ∧ (∀ p ∈ s.stateAddrs n i, readable s p 4 = true) ∧
    (∀ p ∈ updWrites s n 0 0 0 0 0, storable s p.1 p.2 = true) ∧ s.digestDue n.w = false ∧
    storable s (n.nrm + (1 - s.cb) * s.bankSpan) ((leBytes 8 0).map some) = true ∧
    (s.hub 0).upds[1]? = some { n with pos := 1, epIn := 9 } ∧ ((s.hub 0).ep 9).data = [] ∧
    (s.hub 0).upds[2]? = some { n with pos := 2, next := 2 } ∧ ({ n with next := 2 } : UpdRun).elems ≤ 2 ∧
    ∀ m ∈ (s.hub 0).upds.take 2, m.pos ≠ 2 := by decide +kernel
theorem witness_UpdateItems_rebuild :
    let n : UpdRun := { elems := 2, masters := 4096, wc := 20480, fmt := 1, rebuild := true }
    let s := { hubbed {} (oneHub { upds := [n] }) with crown := { openStep := some {}, rebuild := true } }
    (s.hub 0).upds[0]? = some n ∧ n.stopped = false ∧ n.rebuild = true ∧ n.next + 1 < n.elems ∧ s.tracing = false ∧ s.crown.rebuild = true ∧
    readable s (4096 + s.cb * s.bankSpan) 4 = true ∧ storable s (20480 + s.cb * s.bankSpan) [some 0, some 0] = true := by decide +kernel
/-- A message of this job to rank 0 over port 0, which is up. -/
def prio0 : PrioHead := { port := 0, src := 1 }
def linked (s : State) : State := { s with hubs := [(0, { ports := [(0, { up := true })] })] }
/-- Whether a message is taken at once. -/
def takes (s : State) (m : PrioHead) (b : PrioBody) (hub : Fin 8 := 0) : Bool :=
  (s.port (m.port.val / 2) (m.port.val % 2)).up && (s.prioIn m b hub).2 && (s.prioIn m b hub).1.prioNext m.port.val == []
theorem taken_of (s : State) (m : PrioHead) (b : PrioBody) (hub : Fin 8) (h : takes s m b hub = true) :
    takenNow s m b hub (s.prioIn m b hub).1 := by
  unfold takes at h
  simp only [Bool.and_eq_true, beq_iff_eq] at h
  exact ⟨h.1.1, Prod.ext rfl h.1.2, h.2⟩
theorem witness_UpdateItems_delivery :
    ((oneHub { normQ := [5] }).hub 0).normQ = 5 :: [] ∧ ((oneHub {}).hub 0).n2 = none ∧ ((oneHub { n2 := some 1 }).hub 0).n2.isSome = true ∧
    takes (linked {}) prio0 (.digest { op := 0, digest := 0 }) 7 = true := by decide +kernel
theorem witness_HubStreams :
    let f : HubItem := { body := .ladle 0 false 0 true 0 [(0, 1)], elems := 1, epIn := 0 }
    let m : HubItem := { body := .ladle 0 true 0 false 0 [(0, 1)], elems := 2, addr := 64, fmt := 1 }
    ∀ it ∈ [f, m], let s := hubbed { lists := [[], [], [], [], [], [.item {} it]] } (oneHub { eps := [(0, { data := [{}] })] })
      ((s.hubWindow 0 5).find? fun w => match w.item.body with
        | .ladle _ _ _ _ _ _ => s.inputReady 0 w.item
        | _ => false) = some { inst := {}, head := {}, item := it } ∧ (it.epIn ≠ 0xFFF → it.elems ≤ ((s.hub 0).ep it.epIn).data.length) ∧
      readable s 64 4 = true ∧ storable s 0 [some 0, some 0, some 0, some 0] = true := by decide +kernel
theorem witness_HubStreams_quiet (m : HubMould) (e : Tbl Endpoint) (p : Tbl Port) : quiet (hubbed m (oneHub { eps := e, ports := p })) :=
  quiet_oneHub _ _ rfl rfl rfl rfl rfl
/-- Without a slow tier, memory is the eight HBM slices. -/
theorem low_memory (s : State) (h : ∀ k, (s.hub k).slowSize = 0) (a : Nat) : s.memOk a = decide (a < 8 * hbmSlice) := by
  unfold State.memOk addrHome
  by_cases c : a < 8 * hbmSlice
  · rw [if_pos c]; exact (decide_eq_true c).symm
  · rw [if_neg c, decide_eq_false c]
    split
    · rfl
    · next e => split at e <;> simp at e
    · rw [h]; rfl
theorem whole_sector (s : State) (h1 : s.memErr = []) (h2 : s.poison = []) (a : Nat) : (s.readSector a).2.2 = false := by
  unfold State.readSector
  rw [h1, h2]
  split
  · exact (by decide +kernel : (rsDecode false []).bad = false)
  · rfl
/-- A TIER item of one element whose destination is wherever its words say. -/
def tiering : State := hubbed { lists := [[], [], [], [], [], [.item {} { body := .tier (1, 2, 3), elems := 1, addr := 4096 }]] } (oneHub {})
theorem witness_HubStreams_tier :
    ((tiering.hubWindow 0 5).find? fun w => match w.item.body with | .tier _ => true | _ => false) =
      some { inst := {}, head := {}, item := { body := .tier (1, 2, 3), elems := 1, addr := 4096 } } ∧ readable tiering 4096 4 = true := by
  decide +kernel
theorem witness_HubStreams_dest (a : Nat) (b : List Byte) (hb : b.length = 4) (h : tiering.memOk (a + 4 - 1) = true) :
    canStore tiering a (b.map some) := by
  have low := low_memory tiering (every_hub (fun x => x.slowSize = 0) rfl _ _ rfl rfl)
  rw [low] at h
  have h := of_decide_eq_true h
  intro x hx
  refine ⟨?_, fun bad => absurd bad (by rw [whole_sector _ rfl rfl]; decide)⟩
  rw [low]
  rw [List.length_map, hb] at hx
  unfold sectorsOf at hx
  rw [if_neg (by decide)] at hx
  obtain ⟨i, hi, rfl⟩ := List.mem_map.1 hx
  have hi := List.mem_range.1 hi
  exact decide_eq_true (by unfold hbmSlice at *; omega)
/-- A port that sends a stream and one that takes it, with one element of four bytes that has come whole. -/
def inHead : StreamHead := { src := 1, elems := 1, bytes := 4 }
def inStream (t : List Byte) : RxStream := { head := inHead.encode, held := [inHead.encode ++ [1, 2, 3, 4] ++ t], bound := .here }
def inTrailer : List Byte := trailer [1, 2, 3, 4] none
def sendItem0 : HubItem := { body := .portSend 2 false true 4, elems := 1, epIn := 0, peer := 1 }
def recvItem0 (g : Bool) : HubItem := { body := .portRecv 2 g, elems := 1, epOut := 7, peer := 1, addr := 64 }
def portState (g : Bool) (rx : List RxStream) (e : Tbl Endpoint) : State :=
  let m : HubMould := { lists := [[], [.item {} { body := .node { slots := [{ primary := 7 }] }, elems := 8 }], [],
    [.item {} sendItem0, .item {} (recvItem0 g)]] }
  let s := hubbed m (oneHub { ports := [(0, { up := true, rx := rx })], eps := e })
  { s with loaded := { s.loaded with route := { wire := [0x80000000] }, loaded := true } }
/-- What PORT_RECV takes up. -/
def recvAt (s : State) : Option (HubAt × Nat × Bool × (Nat × RxStream) × Option (Nat × RxStream)) :=
  (s.hubWindow 0 3).findSome? fun w => match w.item.body with
    | .portRecv disp g => (s.arrived 0 w.item (s.hubOp w.head w.inst.i w.item) g).bind fun x =>
        if x.1.2.waits || x.2.any fun y => y.2.waits then some (w, disp, g, x.1, x.2) else none
    | _ => none
theorem witness_HubStreams_send :
    let t := portState false [] [(0, { data := [{}] })]
    let s := { t with loaded := { t.loaded with route := {} } }
    (∀ u ∈ [s, t], u.ckptSendAt 0 0 = none ∧ ((u.hubWindow 0 3).find? fun w => match w.item.body with
      | .portSend _ _ _ _ => u.inputReady 0 w.item
      | _ => false) = some { inst := {}, head := {}, item := sendItem0 } ∧ sendItem0.elems ≤ ((u.hub 0).ep sendItem0.epIn).data.length ∧
      (u.port 0 0).up = true) ∧
    (s.wire 0 0).1 = false ∧ (t.wire 0 0).1 = true ∧ (t.wire 0 1).1 = false ∧ (t.port 0 1).up = false := by decide +kernel
set_option synthInstance.maxSize 1000 in
theorem witness_HubStreams_recv :
    let w := fun g => ({ inst := { pos := 1 }, head := {}, item := recvItem0 g } : HubAt)
    let r := inStream inTrailer
    let bad := inStream (inTrailer.map (· + 1))
    let stuck := { r with refusing := some 1 }
    let ga : RxStream := { r with head := ({ inHead with kind := 2 } : StreamHead).encode
                                  held := [({ inHead with kind := 2 } : StreamHead).encode ++ [1, 2, 3, 4] ++ inTrailer] }
    recvAt (portState false [r] []) = some (w false, 2, false, (0, r), none) ∧ (portState false [r] []).credit 0 7 = true ∧
    (streamParts (cameBytes r)).2 = some inTrailer ∧ pcrcOk [1, 2, 3, 4] inTrailer = true ∧
    storable (portState false [r] []) 64 [some 1, some 2, some 3, some 4] = true ∧
    recvAt (portState false [stuck] []) = some (w false, 2, false, (0, stuck), none) ∧
    recvAt (portState false [bad] []) = some (w false, 2, false, (0, bad), none) ∧
    (∃ tr, (streamParts (cameBytes bad)).2 = some tr ∧ pcrcOk (streamParts (cameBytes bad)).1 tr = false) ∧
    recvAt (portState true [r, ga] []) = some (w true, 2, true, (0, r), some (0, ga)) ∧
    (∃ tr, (streamParts (cameBytes ga)).2 = some tr ∧ pcrcOk (streamParts (cameBytes ga)).1 tr = true) := by
  refine ⟨?_, ?_, ?_, ?_, ?_, ?_, ?_, ⟨_, rfl, ?_⟩, ?_, ⟨_, rfl, ?_⟩⟩ <;> decide +kernel
/-- An endpoint of a node that holds all it may, and one element more. -/
def crowded : State := portState false [inStream inTrailer] [(7, { data := List.replicate (Config.endpointRoom + 1) {} })]
theorem witness_HubStreams_credit : (recvAt crowded).isSome = true ∧ crowded.credit 0 7 = false := by
  refine ⟨by decide +kernel, ?_⟩
  unfold State.credit
  rw [show ((crowded.hub 0).ep 7).data = List.replicate (Config.endpointRoom + 1) {} from rfl, List.length_replicate,
    show (crowded.hubMould 0).consumer 7 = some (1, 0, { body := .node { slots := [{ primary := 7 }] }, elems := 8 }) by decide +kernel]
  simp
theorem witness_HubStreams_ckpt :
    let read : HubItem := { body := .ckptSend 0, elems := 8, addr := 64, epOut := 2 }
    let send : HubItem := { body := .portSend 2 true false 4, elems := 8, epIn := 2, peer := 1 }
    let m : HubMould := { lists := [[], [], [], [.item {} send], [], [.item {} read]] }
    let s := hubbed m (oneHub { ckpt := [(4, 0, 0)], eps := [(2, { data := List.replicate 8 {} })], ports := [(0, { up := true })] })
    let t := { s with loaded := { s.loaded with route := { wire := [0x80000000] }, loaded := true } }
    (s.hub 0).ckpt = (4, 0, 0) :: [] ∧ (s.ckptItems 0 0)[0]? = some (({} : Head), read) ∧ readable s 64 8 = true ∧
    (s.ckptItems 0 0)[1]? = none ∧ ((oneHub {}).hub 0).ckpt = [] ∧
    t.ckptSendAt 0 0 = some (0, send, 0, 4, 8) ∧ 8 ≤ ((t.hub 0).ep send.epIn).data.length ∧ (t.wire 0 0).1 = true ∧ (t.port 0 0).up = true := by
  decide +kernel
theorem witness_HubStreams_ckpt_quiet (c : List (Nat × Nat × Nat)) (m : HubMould) : quiet (hubbed m (oneHub { ckpt := c })) :=
  quiet_oneHub _ _ rfl rfl rfl rfl rfl

/-! ### The crown -/

/-- Whether a message over port 0 of a linked device is taken. -/
def taken (m : PrioHead) (b : PrioBody) (c : Crown) : Bool := takes (linked { crown := c }) m b
/-- A device whose hub 0 has lost its line to the crown. -/
def cutOff : State := { hubs := [(0, { chans := [(13, { tx := { out := [0, 1, 2, 3] } })] })] }
/-- A device whose channels have their versions. -/
def agreed (s : State) : State :=
  { s with hubs := (List.range 8).map fun h => (h, { s.hub h with chans := (List.range 14).map fun c => (c, { version := 1 }) }) }
theorem witness_FaultHandling :
    ({ crown := { reports := [{ code := 0x0A }] } } : State).crown.reports[0]? = some { code := 0x0A } ∧
    (let b : NoticeBody := { epoch := 1, code := 8, die := 56, detail0 := 0, detail1 := 0, seq := 0 }
     let s := linked { crown := { epoch := 2 } }
     (s.port 0 0).up = true ∧ b.epoch.toNat < s.crown.epoch.toNat ∧ (s.updPort 0 0 fun x => (x.prioSeq prio0 (.notice b) 0).1).prioNext 0 = [] ∧
     takes (linked { crown := { epoch := 1 } }) prio0 (.notice b) = true ∧ ((linked {}).prioIn prio0 (.notice b)).1.tracing = false) ∧
    cutOff.crownReach 3 = false ∧ cutOff.crownReach 56 = true ∧ cutOff.crownReach 8 = true ∧
    (let s := oneHub {}
     let t := { s with crown := { rstate := .aborting, order := 1 } }
     (t.crown.rstate = .aborting ∧ t.crown.order = 1 ∧ t.power.quenching = false ∧ t.power.quenched = false ∧
       ∀ e ∈ t.hubs, e.2.slots = [])) ∧
    ({ slots := [{ req := { kind := .rewrite }, bank := 0, row := 0 }] } : Hub).slots ≠ [] ∧
    ({ crown := { deferring := true } } : State).tracing = false ∧ ({ crown := { records := [{}] } } : State).crown.records[0]? = some ({} : Record) ∧
    ({ link := { up := true } } : State).link.up = true ∧ ({} : State).link.queue.length < 512 := by decide +kernel
/-- A device of one rank whose class 0 takes one micro-batch of 8 tokens, with the feed of step 1 given. -/
def fed (f : Feed) : State :=
  { crown := { job := .active, rstate := .running, feeds := [(1, f)] }
    loaded := { sets := [{ classes := [{ present := true, mbCount := 1, maxLen := 8, tokenCap := 8 }] }] } }
/-- A manifest of it with one segment. -/
def oneBatch : Manifest := { mbs := [8], segs := [(64, 0, 8)] }
theorem witness_StepOpening :
    (let s := fed { manifest := some oneBatch, complete := [(0, true)] }
     stepMayOpen s ∧ (s.feed (s.crown.gen + 1)).manifest = some oneBatch ∧ manifestGood s oneBatch ∧
     (∀ i, i < oneBatch.segs.length → tget false (s.feed (s.crown.gen + 1)).complete i = true) ∧ (s.feed (s.crown.gen + 2)).manifest = none) ∧
    (let s := fed { manifest := some oneBatch }
     ∃ i, i < oneBatch.segs.length ∧ tget false (s.feed (s.crown.gen + 1)).complete i = false) ∧
    (let m := { oneBatch with mbs := [9] }
     stepMayOpen (fed { manifest := some m }) ∧ (fed { manifest := some m }).manifestCheck m = some (2, 0)) ∧
    ¬ stepMayOpen {} := by
  unfold stepMayOpen manifestGood segmentGood
  refine ⟨?_, ⟨0, ?_⟩, ?_⟩ <;> decide +kernel
theorem witness_StepOpening_phys : ∀ n, n < 48 → ∀ k, k < 48 → (fed {}).phys n = (fed {}).phys k → n = k := by decide +kernel
theorem witness_StepOutcomes :
    (let o : OpenStep := { step := 1 }
     let s : State := { crown := { rstate := .running, openStep := some o } }
     s.crown.openStep = some o ∧ o.replay = false ∧ o.init = false ∧ s.crown.voted = none ∧ s.crown.deferring = false ∧ s.workDone = true ∧
       s.lossDone = true ∧ (∀ e ∈ s.hubs, e.2.needDig = []) ∧ s.tracing = false ∧ s.unwritten 1 = none) ∧
    (let o : OpenStep := { step := 1, replay := true }; o.replay = true) ∧
    taken prio0 (.vote { nonfinite := false, cls := 0 }) {} = true ∧ taken prio0 (.outcome { discard := true, reason := 4 }) {} = true ∧
    (hubbed { tagged := [(0, 64)] } {}).unwritten 1 = some (0, 0) ∧ (2 : Nat) ≠ 1 ∧ (2 : Nat) ≠ 4 := by decide +kernel
theorem witness_BoundaryWork :
    (let s := { hubbed { tagged := [(0, 64)] } (oneHub { relabel := true }) with
       crown := { relabel := true, rstate := .running } }
     (s.hub 0).relabel = true ∧ s.crown.relabel = true ∧ s.crown.rstate = .running ∧
     ∀ r ∈ s.taggedRanges 0, readable s (r.1 + 1 * s.bankSpan) r.2 = true ∧ storable s r.1 (List.replicate r.2 (some 0)) = true) ∧
    (let s : State := { loaded := { reshards := [{ fromMap := 0, toMap := 3, rounds := 1 }] }, crown := { switch := some (2, 0, 3) } }
     s.crown.switch = some (2, 0, 3) ∧
     ((s.loaded.reshards.zipIdx.find? fun t => t.1.fromMap == s.crown.mapping && t.1.toMap == 3).isSome) = true) ∧
    (let c : Crown := { suspend := some (1, true) }; c.switch = none ∧ c.suspend = some (1, true)) ∧
    (let s : State := { loaded := { reshards := [{ rounds := 1 }] }, crown := { reshard := some (0, 0, false) } }
     s.crown.reshard = some (0, 0, false) ∧ 0 < (lget {} s.loaded.reshards 0).rounds ∧ (lget {} s.loaded.reshards 0).rounds ≤ 1 ∧
     s.crown.openStep = none ∧ s.crown.switch = none ∧ s.crown.suspend = none) ∧
    taken prio0 (.phase { round := 0, place := false }) {} = true ∧ ({ rstate := .running } : Crown).rstate = .running := by decide +kernel
theorem witness_BoundaryWork_quiet : quiet { hubbed { tagged := [(0, 64)] } (oneHub { relabel := true }) with
    crown := { relabel := true, rstate := .running } } := quiet_oneHub _ _ rfl rfl rfl rfl rfl
theorem witness_BoundaryWork_sound : ({ hubbed { tagged := [(0, 64)] } (oneHub { relabel := true }) with
    crown := { relabel := true, rstate := .running } } : State).Sound := sound_of _ rfl rfl rfl rfl rfl rfl
theorem witness_RestartReadiness :
    (let s : State := agreed { crown := { rstate := .aborting, order := 2 } }
     s.negotiated = true ∧ s.crown.rstate = .aborting ∧ s.crown.order = 2 ∧ s.power.quenched = false ∧ s.power.mitten = false ∧ s.startup.refusal = 0 ∧
       ((List.range 16).filter fun q => (s.wire (q / 2) (q % 2)).1) = []) ∧
    (let c : Crown := { rstate := .aborting, order := 3 }
     c.rstate = .aborting ∧ c.order = 3 ∧ 0 < ({} : State).mouldSet.ranks ∧ 0 ∉ c.triedRanks ∧ ∀ q, q < 0 → q ∈ c.triedRanks) ∧
    (∀ r, r < ({} : State).mouldSet.ranks → r ∈ ({ triedRanks := [0] } : Crown).triedRanks) ∧
    (([0, 1] : List W32).all fun e => taken { prio0 with epoch := e } (.ready { gen := 0, flags := 0 }) {}) = true ∧
    (let s : State := { crown := { readys := [(0, {})] } }
     ((List.range s.mouldSet.ranks).filter fun r => !thas s.crown.readys r) = [] ∧ s.crown.attempt + 1 < 5 ∧
     (∀ r ∈ s.crown.readys, r.2.flags.getLsbD 8 = false) ∧ (s.plan s.crown.readys).map Plan.substs = some [] ∧
     (∀ r, r < s.mouldSet.ranks → thas s.crown.readys r = true ∧ (tget {} s.crown.readys r).flags.getLsbD 2 = false) ∧
     s.startup.started = false ∧ s.crown.rankNow.toNat = s.coord ∧ s.crown.readys ≠ [] ∧ s.header.initSet = 0xFFFF) ∧
    5 ≤ ({ attempt := 4 } : Crown).attempt + 1 := by decide +kernel
theorem witness_RestartSteps :
    (let c : Crown := { rstate := .aborting, order := 3, leader := 1 }
     let go : GoBody := { attempt := 1, gen := 5, mode := 0, commit := false, substs := 0 }
     taken { prio0 with epoch := 1 } (.subst { lost := 0, spare := 1, source := 0 }) c = true ∧ taken { prio0 with epoch := 1 } (.go go) c = true ∧
     mayTakeGo { crown := c } 1 ∧ mayTakeGo { crown := { leader := 1 }, startup := { readySent := true } } 1 ∧ ¬ mayTakeGo {} 1) ∧
    (∀ i ∈ [false, true], let s : State := { crown := { importDue := i, epoch := 1, relabel := i } }
     s.initDue = false ∧ s.crown.rankNow.toNat < s.mouldSet.ranks ∧ s.crown.mode = 0 ∧ s.crown.epoch ≠ 0 ∧ s.mouldSet.step.replayOnRestart = false) ∧
    (∃ c : Crown, c.mode = 1 ∧ c.substIn = [(0, 1, 2)] ∧ (∀ x ∈ c.substIn, x.2.2 ≠ c.rankNow.toNat) ∧ ∃ x ∈ c.substIn, x.1 = c.rankNow.toNat) ∧
    (let s : State := { crown := { rstate := .restarting, order := 7, rebuild := false, importDue := true } }
     s.crown.rstate = .restarting ∧ s.crown.order = 7 ∧ s.crown.openStep = none ∧ (s.hubs.any fun e => e.2.restoring) = false ∧
     s.crown.rebuild = false ∧ ∀ e ∈ s.hubs, ∀ p ∈ e.2.ports, p.2.tx = []) ∧
    taken prio0 (.done 5) {} = true ∧ taken prio0 .openJob {} = true ∧ taken prio0 (.stall 5) {} = true ∧
    (let c : Crown := { leader := 1, epoch := 0, rstate := .restarting, order := 10 }
     c.leader = prio0.src ∧ c.epoch = prio0.epoch ∧ c.reshard = none) := by
  unfold mayTakeGo
  refine ⟨?_, ?_, ⟨{ mode := 1, substIn := [(0, 1, 2)] }, ?_⟩, ?_⟩ <;> decide +kernel

/-! ### Ports, time and power -/

/-- A device with power and orders 1 to 6 of start-up done, and its ports. -/
def powered (s : State) : State :=
  { s with rstN := true, power := { s.power with rails := .up }, startup := { s.startup with done := [1, 2, 3, 4, 5, 6] } }
/-- Port 0 of hub 0, connected to port 3 of rank 5. -/
def port0 : PortAt := { hub := 0, port := 0 }
def wired (p : Port) : State :=
  powered { hubs := [(0, { ports := [(0, p)] })], loaded := { loaded := true, route := { wire := [0x80050003], timeSrc := 0, timeServe := 1 } } }
/-- A flit whose CRC is right, one that was stomped, and one with an error. -/
def sealed (f : Flit) : Flit := { f with crc := flitCrc f }
def stomped (f : Flit) : Flit := { f with crc := ~~~ flitCrc f }
theorem witness_PortLinkUp : trains (wired {}) 0 0 ∧ ¬ trains {} 0 0 ∧ (trains (wired { order := 4 }) 0 0 ∧ 2 ≤ ((wired { order := 4 }).port 0 0).order) ∧
    ((wired {}).power.waking = false ∧ ((wired {}).port 0 0).order < 4 ∧ ((wired {}).port 0 0).farAsleep = false) ∧
    ((wired { up := true }).port 0 0).up = true ∧ ((wired { farAsleep := true }).port 0 0).farAsleep = true ∧ (wired {}).hubsOn = true ∧
    (List.replicate 63 (0 : Int) ++ [5]).length = 64 ∧ (List.replicate 62 (0 : Int) ++ [5]).length < 64 := by
  unfold trains; decide +kernel
/-- A flit of stream 0 with sequence number 3, its CRC right. -/
def flit3 : Flit := { type := 1, seq := 3, stream := 0, crc := 0, body := [1] }
/-- A codeword in which more symbols are wrong than the code corrects. -/
theorem witness_FlitDelivery_bad : flitCheck { flit3 with crc := 1, fec := [(16, true)] } = .bad ∧
    ∃ c ∈ ({ flit3 with crc := 1, fec := [(16, true)] } : Flit).fec, ¬ c.1 ≤ 15 :=
  ⟨by unfold flitCheck; exact if_pos (by decide), (16, true), by decide, by decide⟩
theorem which_crc (c : W32) : c ≠ c ^^^ 0xFFFFFFFF := by
  intro h
  have h1 : c ^^^ c = c ^^^ (c ^^^ 0xFFFFFFFF) := by rw [← h]
  rw [← BitVec.xor_assoc, BitVec.xor_self] at h1
  exact absurd h1 (by decide)
/-- A flit with its own CRC is good, or reserved by its type; with the complement of it, it is stomped. -/
theorem which_sealed (f : Flit) (h : fecOk f = true) : flitCheck (sealed f) = if 4 ≤ f.type.toNat then .reserved else .good := by
  have e : flitCrc (sealed f) = flitCrc f := rfl
  have d : (sealed f).crc = flitCrc f := rfl
  have o : fecOk (sealed f) = true := h
  have t : (sealed f).type = f.type := rfl
  unfold flitCheck
  rw [e, d, o, t, if_neg (by decide), if_neg (which_crc _), if_neg (fun h => h rfl)]
theorem which_stomped (f : Flit) (h : fecOk f = true) : flitCheck (stomped f) = .stomped := by
  have e : flitCrc (stomped f) = flitCrc f := rfl
  have d : (stomped f).crc = flitCrc f ^^^ 0xFFFFFFFF := by
    show ~~~ flitCrc f = _
    rw [← BitVec.allOnes_xor, BitVec.xor_comm]; rfl
  have o : fecOk (stomped f) = true := h
  unfold flitCheck
  rw [e, d, o, if_neg (by decide), if_pos rfl]
theorem witness_FlitDelivery_stomped : flitCheck (stomped flit3) = .stomped := which_stomped _ rfl
theorem witness_FlitDelivery_reserved : flitCheck (sealed { flit3 with type := 4 }) = .reserved := which_sealed _ rfl
theorem witness_FlitDelivery_good : flitCheck (sealed flit3) = .good ∧ ((wired {}).port 0 0).up = false :=
  ⟨which_sealed _ rfl, by decide +kernel⟩
/-- A device whose port 0 expects a number, after the flit is counted and its acknowledgement taken. -/
def expecting (q : Nat) : Port := ((((wired { up := true, rxData := { expected := BitVec.ofNat 24 q } }).countFec 0 flit3).updPort 0 0 fun p =>
  p.takeAck flit3.ackc flit3.ack).port 0 0)
theorem witness_FlitDelivery_number : (expecting 3).rxData.expected = flit3.seq ∧ seqLt flit3.seq (expecting 4).rxData.expected = true ∧
    seqLt (expecting 2).rxData.expected flit3.seq = true ∧ (expecting 2).rxData.discard = false ∧ earlyFlits (expecting 2) < 64 ∧
    (expecting 2).rxData.early = [] ∧ ((wired { up := true }).port 0 0).up = true ∧ ((wired { up := true }).port 0 0).rx = [] := by decide +kernel
theorem witness_FlitDelivery_ack :
    seqLt ({ data := { next := 5, acked := 1 } } : Port).data.acked 5 = true ∧ seqLt ({ data := { next := 5, acked := 1 } } : Port).data.next 5 = false ∧
    seqLt ({ data := { next := 5, acked := 1 } } : Port).data.acked 1 = false ∧
    (let p : Port := { prio := { next := 5, acked := 1 } }
     seqLt p.prio.acked 5 = true ∧ seqLt p.prio.next 5 = false ∧ seqLt p.prio.acked 1 = false) := by decide +kernel
/-- A message in a flit of its own whose number is the one expected, is behind it, or comes early. -/
theorem witness_FlitDelivery_messages :
    let m : PrioHead := { prio0 with seq := 3 }
    let y := fun (q : BitVec 24) => (({ rxPrio := { expected := q } } : Port)).takeAck m.ackc m.ack
    m.newFlit = true ∧ m.seq = (y 3).rxPrio.expected ∧ (m.seq ≠ (y 4).rxPrio.expected ∧ seqLt m.seq (y 4).rxPrio.expected = true) ∧
    (m.seq ≠ (y 2).rxPrio.expected ∧ seqLt m.seq (y 2).rxPrio.expected = false ∧ (y 2).rxPrio.discard = false ∧ earlyFlits (y 2) < 64 ∧
      ((y 2).prioEarly.any fun e => e.1.seq == m.seq) = false) := by decide +kernel
theorem witness_FlitDelivery_stream : ∀ k ∈ [0, 1], ∃ r : RxStream,
    ({ rx := [r] } : Port).rx.find? (fun r => r.id == flit3.stream && !r.complete) = some r ∧ r.refusing = none ∧ r.bound = .here ∧
    (StreamHead.decode r.head).kind = k ∧ ([r].filter fun z => z.id == r.id).length = 1 ∧ (streamParts (r.bytes ++ flit3.body)).2 = none :=
  fun k hk => ⟨{ bound := .here, head := ({ kind := k, bytes := 64, elems := 64 } : StreamHead).encode
                 bytes := ({ kind := k, bytes := 64, elems := 64 } : StreamHead).encode }, by revert k; decide +kernel⟩
theorem witness_FlitDelivery_dropped : ∃ r : RxStream, ({ rx := [r] } : Port).rx.find? (fun r => r.id == flit3.stream && !r.complete) = some r ∧
    r.refusing = none ∧ r.bound = .dropped := ⟨{ bound := .dropped }, by decide +kernel⟩
theorem witness_FlitDelivery_replay : ∃ p : Port, (wired p).port 0 0 = p ∧ p.up = true ∧ p.data.replays + 1 < 16 ∧ p.rxData.early ≠ [] ∧
    replaysOf p.prio 0 = 16 ∧ replaysOf p.data 0 < 16 ∧ replaysOf p.prio 1 < 16 ∧ p.prioEarly ≠ [] ∧
    (p.data.held.filter fun y => !y.acked) = { flit := flit3 } :: [] ∧ p.prio.held = { flit := flit3 } :: [] ∧
    ∀ z ∈ p.data.held.filter (fun y => !seqLt y.flit.seq 0), readable (wired p) ((wired p).flitAt 0 0 z.slot) z.flit.body.length = true :=
  ⟨{ up := true, data := { held := [{ flit := flit3 }], replays := 14 }, prio := { held := [{ flit := flit3 }], replays := 15 }
     rxData := { early := [(0, flit3)] }, prioEarly := [(prio0, .openJob, 0)] }, by decide +kernel⟩
theorem witness_StreamControl :
    let r : RxStream := { id := 7, delivered := 2, complete := true }
    let x : Port := { up := true, rx := [r] }
    ((wired x).port 0 0).up = true ∧ ((wired {}).port 0 0).up = false ∧ x.rx.find? (fun r => r.id == 7) = some r ∧
    (∀ z ∈ x.rx, z.id = 7 → z = r) ∧ prio0.bcast = false ∧ prio0.dst = ({} : Crown).rankNow ∧
    ({ prio0 with dst := 5 } : PrioHead).dst ≠ ({} : Crown).rankNow ∧
    (let p : Port := { tx := [{ id := 1, bodies := [[1]] }] }; p.tx[0]? = some { id := 1, bodies := [[1]] }) := by decide +kernel
theorem witness_ClockDiscipline :
    (let s := wired { up := true }
     s.crownOn = true ∧ s.loaded.loaded = true ∧ s.loaded.route.timeSrc < 16 ∧ (s.port 0 0).up = true ∧ bit s.loaded.route.timeServe 0 = true) ∧
    taken prio0 (.timeSync 5) {} = true ∧ taken prio0 (.timeReply 5 6) {} = true ∧ bit ({} : State).loaded.route.timeServe 0 = false ∧
    (let s := { wired { up := true } with time := { lastT1 := some 9, state := .locked } }
     prio0.port.val = s.loaded.route.timeSrc ∧ s.time.lastT1 = some 9 ∧ s.crownOn = true ∧ s.time.state = .locked) ∧
    (let t : Time := { corr := 4, ticks := 5, corrLog := [(3, 4), (1, 4)] }
     (∀ e ∈ t.corrLog, e.2 = 4 ∧ e.1 ≤ t.ticks) ∧ t.corrLog.Pairwise (fun a b => b.1 ≤ a.1) ∧ t.corr = 4) ∧
    (let t : Time := { ticks := 6000000001, corrLog := [(2, 4), (1, -4)] }
     1 < 2 ∧ 2 < t.ticks ∧ t.ticks ≤ 1 + 6000000000 ∧ t.corrLog = [(2, 4), (1, -4)]) := by decide +kernel
theorem witness_ClockDiscipline_steered : steered {} { corr := 327, corrLog := [(0, 327)] } 5000 := by unfold steered; decide +kernel
/-- The time port of a powered device in domain 24, and a message of master 8. -/
def timed (t : Time) (mode : Nat) : State :=
  powered { time := t, loaded := { loaded := true, route := { timeSrc := 0x1F }, time := some { domain := 24, ppsMode := mode } } }
def ptp : PtpMsg := { domain := 24, source := 8 }
def offer (n : Byte) : AnnounceBody :=
  { priority1 := n, clockClass := 0, accuracy := 0, variance := 0, priority2 := 0, identity := 0, stepsRemoved := 0 }
theorem witness_TimePort :
    (portServes (timed {} 0) ptp ∧ ¬ portServes {} ptp) ∧
    (let s := timed { master := some (8, offer 5), syncT2 := some (0, 3), delayT3 := some (0, 4), pair := some (1, 2) } 0
     portServes s ptp ∧ (∃ b, s.time.master = some (ptp.source, b)) ∧ s.time.syncT2 = some (ptp.seqId, 3) ∧ s.time.delayT3 = some (ptp.seqId, 4) ∧
     s.time.pair = some (1, 2) ∧ s.loaded.time.isSome = true) ∧
    AnnounceBody.better (offer 5) (offer 4) = false ∧ AnnounceBody.better (offer 4) (offer 5) = true ∧ (9 : W64) ≠ ptp.source ∧
    (let s := timed { ppsLast := some 0, ticks := 50000000 } 1
     s.crownOn = true ∧ (∃ y, s.loaded.time = some y ∧ y.ppsMode = 1) ∧ ¬ s.time.ticks < 0 + 50000000 ∧ s.time.state = .unset) ∧
    (∃ k, ({ ppsLast := some 0, ticks := 49999999 } : Time).ppsLast = some k ∧ ({ ticks := 49999999 } : Time).ticks < k + 50000000) ∧
    (let s := timed { state := .free, counter := 65536000000000 } 0
     s.crownOn = true ∧ s.time.state ≠ .unset ∧ s.time.lastSecond < s.time.counter / 2 ^ 16 / 1000000000) := by
  unfold portServes
  refine ⟨⟨⟨?_, ?_, ?_, _, rfl, ?_⟩, ?_⟩, ⟨⟨?_, ?_, ?_, _, rfl, ?_⟩, ⟨_, rfl⟩, ?_⟩, ?_, ?_, ?_, ⟨?_, ⟨_, rfl, ?_⟩, ?_⟩, ⟨_, rfl, ?_⟩, ?_⟩ <;>
    decide +kernel
theorem witness_PowerBudget :
    (powered {}).diesOn = true ∧ ({} : State).diesOn = false ∧
    ({ cuffs := [(55, 1, 100, 15, true)] } : Power).cuffs[0]? = some (55, 1, 100, 15, true) ∧
    (powered {}).crownReach 55 = true ∧ cutOff.crownReach 48 = false ∧
    ({ cuffReports := [(0, 1, 100, 15, 40, 0)] } : Power).cuffReports[0]? = some (0, 1, 100, 15, 40, 0) ∧
    (∃ c : Cuff, c.ceiling.toNat < c.rail.toNat ∧ 15 < c.rail.toNat) ∧
    ∃ c : Cuff, c.stale = false ∧ c.hot = false ∧ ¬ c.ceiling.toNat < c.rail.toNat ∧ ¬ c.budget.toNat < (100 : W16).toNat :=
  ⟨by decide +kernel, by decide +kernel, rfl, by decide +kernel, by decide +kernel, rfl, ⟨{ ceiling := 14, rail := 16 }, by decide⟩,
    { stale := false, ceiling := 35, rail := 15, budget := 100 }, by decide⟩
theorem witness_PowerInput :
    (powered {}).crownOn = true ∧ ({} : State).crownOn = false ∧
    (let p : Power := { ride := true, above62 := true, quenchCuffs := [(3, 1), (4, 1)], quenching := true, rails := .charging }
     ({ power := p } : State).crownReach 4 = true ∧ p.ride = true ∧ p.above62 = true ∧ p.quenchCuffs = [(3, 1)] ++ (4, 1) :: [] ∧ (∀ y ∈ [((3 : Nat), (1 : W32))], y.1 ≠ 4) ∧ p.rails = .charging) ∧
    (let s := powered { power := { quenching := true } }
     s.power.quenching = true ∧ (∀ q ∈ s.power.quenchCuffs, s.crownReach q.1 = false) ∧ ∀ e ∈ s.hubs, e.2.slots = []) ∧
    (let s := powered { power := { quenched := true, vin := 60000 }, pwrOk := true }
     s.crownOn = true ∧ s.power.quenched = true ∧ s.power.below40 = false ∧ s.power.vin ≤ 60000 ∧ s.pwrOk = true) := by decide +kernel
/-- A device whose start-up has reached some orders. -/
def starting (l : List Nat) : State := { powered {} with startup := { done := l }, loaded := { loaded := true } }
theorem witness_StartUp_orders :
    ({} : State).rstN = false ∧ (powered {}).rstN = true ∧
    (∀ l ∈ [[1, 2, 3], [1, 2, 3, 4, 5, 6], [1, 2, 3, 4, 5, 6, 7, 8]], startGoes (starting l)) ∧
    (4 ∉ [1, 2, 3] ∧ 7 ∉ [1, 2, 3, 4, 5, 6] ∧ 11 ∉ [1, 2, 3, 4, 5, 6, 7, 8]) ∧ (starting [8]).portsUp = true := by
  unfold startGoes; decide +kernel
theorem witness_StartUp_sections : ∀ x ∈ (starting [8]).header.sections, beNat (sha512 ((starting [8]).flashBytes x.offset x.length)) = x.digest := by
  decide +kernel
theorem witness_StartUp_boot : (powered {}).startup.board.forceService = false ∧ (powered {}).startup.refusal = 0 ∧ (powered {}).crownOn = true ∧
    12 ∉ (powered {}).startup.done ∧ ({} : State).startup.board.forceService = false := by decide +kernel
theorem witness_StartUp_journal : ({ journal := true, flash0 := true } : State).flash0 = true ∧ ({ journal := true } : State).startup.refusal = 0 := by decide +kernel
theorem witness_StartUp_image : (powered {}).journal = false ∧ (powered {}).imageCode ≠ 0 := by decide +kernel
/-- A device whose refused start it has still to say. -/
def refusing : State := { starting [11] with startup := { done := [11], refusal := 0x0B } }
theorem witness_StartUp_ready : refusing.crownOn = true ∧ refusing.startup.service = false ∧ refusing.loaded.loaded = true ∧
    refusing.startup.readySent = false ∧ refusing.startup.refusal ≠ 0 ∧ refusing.coordReachable = true := by decide +kernel
/-- A device whose pattern has a section of one word, with its digest. -/
def patterned : State :=
  let x : Section := { type := 1, offset := 4096, length := 8, digest := beNat (sha512 (List.replicate 8 0xFF)) }
  { powered {} with startup := { done := [6], header := some { sections := [x] } } }
theorem witness_StartUp_memory : patterned.slowReq = some 7 ∧ (starting [6]).slowReq = none ∧ startGoes patterned := by
  unfold startGoes; decide +kernel
theorem witness_Panel_errs : errsAt {} 49 1 7 true ∧ errsAt {} 56 0 13 false ∧ ∀ rx, ¬ errsAt {} 56 0 7 rx :=
  ⟨⟨by decide, rfl⟩, ⟨by decide, by decide, 13, rfl⟩, fun _ h => absurd h.1 (by decide)⟩
theorem witness_Panel : 0 ∈ (((({} : State).hub 1).chan 7).dir true).active 7 ∧ hasChan 1 7 = true ∧ hasChan 0 7 = false ∧
    96 ∈ (((({} : State).hub 1).chan 7).dir true).spares 7 ∧ 96 ∉ (((({} : State).hub 1).chan 7).dir true).active 7 ∧
    5 ∈ (powered {}).startup.done ∧ (powered {}).startup.service = false ∧ (agreed {}).negotiated = true := by decide +kernel
/-- R508, R510: the first header word of an ACK, and the lanes of a frame: a DATA flit with its 32 bytes, then an IDLE flit. -/
theorem test_frame_flits : ({ type := 0x80, tag := 3, status := 5 } : DevFrame).bytes.take 8 = [0, 0, 0, 0, 0, 5, 3, 0x80] ∧
    ((({} : Link).send { type := 0x85 }).line.map fun x => (x.1, x.2.type, x.2.body.length)) = [(0, 1, 32), (0, 0, 0)] := by decide +kernel

theorem witness_HostFrames_link : ∃ s : State, s.crownOn = true ∧ 2 ∈ s.startup.done ∧ s.link.up = false ∧
    ({ link := { up := true } } : State).link.up = true := ⟨powered {}, by decide +kernel⟩
/-- A full queue with a frame of a type behind 511 ACKs, and a COMPLETE. -/
def fullQueue (t : Byte) : List DevFrame := List.replicate 511 { type := 0x80 } ++ { type := t } :: [{ type := 0x81 }]
theorem which_acks (g : DevFrame) (h : g ∈ List.replicate 511 ({ type := 0x80 } : DevFrame)) : ¬ (g.type = 0x82 ∨ g.type = 0x83) := by
  rw [(List.mem_replicate.1 h).2]; decide
theorem witness_HostFrames : (fullQueue 0x82).length = 513 ∧ (∀ g ∈ fullQueue 0x80, ¬ (g.type = 0x82 ∨ g.type = 0x83)) ∧
    (∀ g ∈ List.replicate 511 ({ type := 0x80 } : DevFrame), ¬ (g.type = 0x82 ∨ g.type = 0x83)) :=
  ⟨by unfold fullQueue; rw [List.length_append, List.length_replicate]; rfl, fun g h => by
    rcases List.mem_append.1 h with h | h
    · exact which_acks g h
    · rcases List.mem_cons.1 h with h | h
      · rw [h]; decide
      · rw [List.mem_singleton.1 h]; decide, which_acks⟩
theorem witness_HostFrames_opcode : ∀ n ∈ [9, 18, 31, 38, 0], ¬ ((1 ≤ n ∧ n ≤ 17 ∧ n ≠ 9) ∨ (0x20 ≤ n ∧ n ≤ 0x25)) := by decide

/-! ### The host -/

/-- A device with power that every order of start-up but the last has readied, and its link up. -/
def served (c : Crown) : State :=
  { powered { crown := c, link := { up := true } } with startup := { done := [1, 2, 3, 4, 5, 6, 7, 8, 9, 10, 11] } }
/-- The ACK, the frames and the state that a frame gets. -/
def ackStatus (o : Out) : Option (Byte × W32) := match o with
  | .next t => t.link.acks.head?.map fun a => (a.status, a.handle)
  | .fault _ => none
  | .refused _ => none
def after (o : Out) : State := match o with
  | .next t => t
  | .fault _ => {}
  | .refused _ => {}
def sentOf (o : Out) : List (Byte × Byte × W32) := (after o).link.sent.map fun x => (x.type, x.status, x.handle)
/-- R513: a frame with the expected tag is taken; one with another tag, or of the last eight, is not run. -/
theorem witness_hosted : ackStatus (exec (.wake { tag := 1 }) (served {})) = some (0x02, 0) ∧
    ackStatus (exec (.wake { tag := 0, fcrc := 1 }) (served {})) = some (0x08, 0) ∧
    ackStatus (exec (.wake { tag := 0, flags := 2 }) (served {})) = some (0x04, 0) ∧
    ackStatus (exec (.wake { tag := 0 }) (served {})) = some (0x05, 0) := by decide +kernel
theorem witness_JobCommands_start :
    ackStatus (exec (.start { tag := 0 }) (served {})) = some (0x05, 0) ∧
    ackStatus (exec (.start { tag := 0 }) { served {} with startup := { (served {}).startup with imported := true } }) = some (0, 1) ∧
    ackStatus (exec (.start { tag := 0 }) (served { rankNow := 1, rstate := .running })) = some (0x0A, 0) ∧
    ackStatus (exec (.start { tag := 0 }) (served { rstate := .stalled, job := .active })) = some (0, 1) ∧
    ackStatus (exec (.start { tag := 0 }) { served {} with startup := { (served {}).startup with refusal := 0x0B } }) = some (0x05, 0) := by decide +kernel
theorem witness_JobCommands_pause :
    ackStatus (exec (.suspend { tag := 0, handle := 1, param0 := 8 }) (served { job := .active, gen := 7 })) = some (0, 0) ∧
    ackStatus (exec (.suspend { tag := 0, handle := 1, param0 := 7 }) (served { job := .active, gen := 7 })) = some (0x0B, 0) ∧
    ackStatus (exec (.suspend { tag := 0, handle := 2 }) (served { job := .suspended, ops := [(2, .exporting 0 [] false)] })) = some (0, 0) ∧
    ackStatus (exec (.resume { tag := 0, handle := 1 }) (served { job := .suspended })) = some (0, 0) ∧
    ackStatus (exec (.resume { tag := 0, handle := 1 }) (served { job := .active })) = some (0x05, 0) := by decide +kernel
theorem witness_JobCommands_cancel :
    (after (exec (.cancel { tag := 0, handle := 1 }) (served { job := .active, rstate := .running }))).crown.cancelPending = true ∧
    sentOf (exec (.cancel { tag := 0, handle := 1 }) (served { job := .suspended, rstate := .running, ops := [(1, .job)] })) = [(0x82, 0, 0), (0x81, 0x0E, 1)] ∧
    sentOf (exec (.cancel { tag := 0, handle := 2 }) (served { job := .active, ops := [(2, .switch 4 1)] })) = [(0x81, 0x0E, 2)] ∧
    sentOf (exec (.cancel { tag := 0, handle := 3 }) (served { job := .suspended, ops := [(3, .importing 4 [] [] false)] })) = [(0x81, 0x0E, 3)] ∧
    sentOf (exec (.cancel { tag := 0, handle := 4 }) (served { job := .suspended, ops := [(4, .replay 4 false)] })) = [(0x81, 0x0E, 4), (0x84, 0, 0)] := by decide +kernel
theorem witness_JobCommands_switch :
    ackStatus (exec (.switchMapping { tag := 0, param0 := 9, param1 := 1 }) (served { job := .active, gen := 7 })) = some (0, 2) ∧
    ackStatus (exec (.switchMapping { tag := 0, param0 := 7, param1 := 1 }) (served { job := .active, gen := 7 })) = some (0x0B, 0) ∧
    (served { job := .active, gen := 7 }).switchOk 1 = false := by decide +kernel
/-- An export of two pieces of one byte. -/
def exporting : State := served { job := .suspended, ops := [(2, .exporting 0 [(0, 0, 32), (1, 64, 32)] false)] }
theorem witness_Images_export : exporting.diesOn = true ∧ exporting.link.up = true ∧
    tget .job exporting.crown.ops 2 = .exporting 0 ((0, 0, 32) :: [(1, 64, 32)]) false ∧ (exporting.agentRead 0 3 0 32).1 = some (List.replicate 32 0) ∧
    tget .job exporting.crown.ops 3 = .job ∧
    ackStatus (exec (.exportCkpt { tag := 0, param0 := 2 }) (served { job := .suspended })) = some (0, 2) := by decide +kernel
theorem witness_Images_export_bad :
    let s := { exporting with hubs := [(0, { validHbm := [(0, 1)] })], poison := [(0, true)] }
    s.diesOn = true ∧ (s.agentRead 0 3 0 32).1 = none := by decide +kernel
/-- One chunk of 32 zeros, with its CRC or with another. -/
def oneChunk (c : Nat) : List Byte := leBytes 8 64 ++ leBytes 8 (c * 2 ^ 32 + 32) ++ List.replicate 32 0
def tagged (s : State) : State := hubbed { tagged := [(64, 32)] } s
theorem witness_Images_chunks :
    (oneChunk 0).length = 48 ∧ (∃ r ∈ (tagged {}).taggedRanges 0, r.1 ≤ 64 ∧ 64 + 32 ≤ r.1 + r.2) ∧
    (∀ r ∈ (tagged {}).taggedRanges 0, 65 < r.1 ∨ r.1 + r.2 < 65 + 32) ∧ (crc32c (List.replicate 32 0)).toNat = 0x8A9136AA ∧
    (State.importChunks 2 (tagged {}) { gen := 1, held := oneChunk 0x8A9136AA, written := [], twice := false }).1.written = [(0, 64, 96)] ∧
    (State.importChunks 2 (tagged {}) { gen := 1, held := oneChunk 1, written := [], twice := false }).1.status = 0x08 ∧
    (State.importChunks 2 (tagged {}) { gen := 1, held := (oneChunk 0).take 47, written := [], twice := false }).1.held.length = 47 := by decide +kernel
theorem witness_Images_import :
    ackStatus (exec (.importCkpt { tag := 0, param0 := 4 }) (served {})) = some (0, 2) ∧
    sentOf (exec (.ckptData { tag := 0, handle := 2, flags := 1 }) (served { ops := [(2, .importing 4 [] [] false)] })) = [(0x81, 0x00, 2)] ∧
    sentOf (exec (.ckptData { tag := 0, handle := 2, flags := 1 }) (served { ops := [(2, .importing 4 [] [] true)] })) = [(0x81, 0x0D, 2)] := by decide +kernel
/-- A FEED_MANIFEST of a step with no microbatch and one segment of 32 zeros at address 64. -/
def oneManifest (g : Nat) : List Byte := leBytes 8 g ++ leBytes 8 (2 ^ 32) ++ List.replicate 128 0 ++ leBytes 8 64 ++ leBytes 8 (0x8A9136AA * 2 ^ 32 + 32)
def oneFeed : Manifest := { cls := 0, mbs := [], params := List.replicate 16 0, segs := [(64, 0x8A9136AA, 32)], raw := oneManifest 1 }
theorem witness_Feed_manifest : manifestOf 1 (oneManifest 1) oneFeed ∧ feedRefusal (served {}) 1 = none ∧
    ((served {}).feedOf 1).manifest ≠ some oneFeed := by unfold manifestOf; decide +kernel
theorem witness_Feed_segment : segmentGood (served {}) oneFeed 0 ∧ ¬ segmentGood (served {}) { oneFeed with segs := [(65, 0, 32)] } 0 := by
  refine ⟨⟨by decide, by decide, ?_, ?_⟩, fun h => absurd h.1 (by decide)⟩ <;> decide +kernel
/-- A device that has the manifest, and then the segment. -/
def feeding : State := served { feeds := [(1, { manifest := some oneFeed })] }
theorem witness_Feed_taken :
    let f : Frame := { tag := 0, param0 := 1, param1 := 0, payload := List.replicate 32 0, fcrc := 0x8A9136AA }
    ackStatus (exec (.feedSegment f) feeding) = some (0, 0) ∧ (after (exec (.feedSegment f) feeding)).crown.feeds =
      [(1, { manifest := some oneFeed, got := [(0, [(0, 32)])], complete := [(0, true)] })] := by decide +kernel
theorem witness_Replay_step :
    ackStatus (exec (.replayStep { tag := 0, param0 := 4 }) (served { job := .suspended, rstate := .running, gen := 4, priorIntact := true })) = some (0, 2) ∧
    ackStatus (exec (.replayStep { tag := 0, param0 := 3 }) (served { job := .suspended, rstate := .running, gen := 4, priorIntact := true })) = some (0x04, 0) ∧
    (served {}).workDone = true ∧ ∀ n, n < 48 → ∀ k, k < 48 → (served {}).phys n = (served {}).phys k → n = k := by decide +kernel
theorem witness_Replay_done :
    (∃ s : State, s.crown.openStep = some { replay := true } ∧ s.workDone = true) ∧ (∃ s : State, s.crown.openStep = some { replay := false }) ∧
    (∃ s : State, s.crown.openStep = none ∧ s.crown.rstate = .restarting ∧ s.crown.order = 9 ∧ (s.redigest).1 ≠ none) :=
  ⟨⟨{ crown := { openStep := some { replay := true } } }, rfl, by decide +kernel⟩, ⟨{ crown := { openStep := some {} } }, rfl⟩,
    { crown := { rstate := .restarting, order := 9 } }, rfl, rfl, rfl, by decide +kernel⟩
theorem witness_HostRegisters_read :
    ((0x3F000000038 : Nat) % 8 = 0 ∧ (0x3F000000038 : Nat) ≤ 0x3F000000040 ∧ (0x3F000000040 : Nat) < 0x3F000000038 + 8 * 2) ∧
    ackStatus (exec (.readReg { tag := 0, param0 := 0x3F000000028, param1 := 1 }) (served {})) = some (0, 0) ∧
    ((after (exec (.readReg { tag := 0, param0 := 0x3F000000028, param1 := 1 }) (served {}))).link.acks.map DevFrame.payload) = [[0x3C, 0, 0, 0, 0, 0, 0, 0]] ∧
    ackStatus (exec (.readReg { tag := 0, param0 := 0x3F000000004, param1 := 1 }) (served {})) = some (0x07, 0) ∧
    ackStatus (exec (.readReg { tag := 0, param0 := 0x3F100000018, param1 := 1 }) { served {} with power := { rails := .up, mitten := true } }) =
      some (0x0C, 0) := by decide +kernel
theorem witness_HostRegisters_write :
    ackStatus (exec (.writeReg { tag := 0, param0 := 0x3F000000028, param1 := 90 }) (served {})) = some (0, 0) ∧
    (after (exec (.writeReg { tag := 0, param0 := 0x3F000000028, param1 := 90 }) (served {}))).crown.window = 90 ∧
    ackStatus (exec (.writeReg { tag := 0, param0 := 0x3F000000000, param1 := 90 }) (served {})) = some (0x06, 0) ∧
    ((after (exec (.hubPlateClearGo { tag := 0, param0 := 0x3F101000018, param1 := 0x8000000000000000 }) (served {}))).hub 1).pcBusy = true := by decide +kernel
theorem witness_HostRegisters_may : hostMayWrite 0x3F000000028 ∧ hostMayWrite 0x3F1070000E8 ∧ hostMayWrite 0x3F202F00078 :=
  ⟨Or.inl (by decide), Or.inr (Or.inl ⟨7, by decide, Or.inr ⟨13, by decide, by decide⟩⟩), Or.inr (Or.inr ⟨47, by decide, by decide⟩)⟩
theorem witness_SleepAndReports :
    ackStatus (exec (.mitten { tag := 0 }) (served {})) = some (0, 2) ∧ ackStatus (exec (.mitten { tag := 0 }) (served { job := .active })) = some (0x05, 0) ∧
    sentOf (exec .mittenComplete { served { ops := [(2, .mitten)] } with power := { rails := .up, entering := true } }) = [(0x81, 0, 2)] ∧
    ackStatus (exec (.wake { tag := 0 }) { served {} with power := { rails := .up, mitten := true } }) = some (0, 2) := by decide +kernel
/-- A device that wakes, its one wired port up. -/
def waking : State :=
  let p : Tbl Port := [(0, { up := true })]
  let s := agreed { hubs := [(0, { ports := p })] }
  { served { ops := [(2, .wake)] } with power := { rails := .up, waking := true }, loaded := { loaded := true, route := { wire := [0x80050003] } }, hubs := s.hubs }
theorem witness_SleepAndReports_wake :
    waking.power.waking = true ∧ waking.negotiated = true ∧ (waking.wire 0 0).1 = true ∧
    ∀ h, h < 8 → ∀ m, m < 2 → (waking.wire h m).1 = true → (waking.port h m).up = true := by decide +kernel
theorem witness_SleepAndReports_ports :
    let s := { served { ops := [(2, .mitten)] } with power := { rails := .up, entering := true }, hubs := [(3, { ports := [(1, { up := true })] })] }
    ((after (exec .mittenComplete s)).port 3 1).farAsleep = true ∧ (s.port 3 1).up = true ∧ (s.port 3 0).up = false := by decide +kernel
/-- A device in service mode. -/
def serving (s : State) : State := { s with startup := { s.startup with service := true } }
theorem witness_ServiceMode :
    sentOf (exec (.service { tag := 0 }) (served { ops := [(2, .mitten)] })) = [(0x81, 0x0D, 2)] ∧
    ackStatus (exec (.service { tag := 0 }) (served { job := .active })) = some (0x05, 0) ∧ (([] : Tbl Hub).map Prod.fst).Nodup ∧
    ackStatus (exec (.exit { tag := 0 }) (serving (served {}))) = some (0, 0) ∧ ackStatus (exec (.exit { tag := 0 }) (served {})) = some (0x05, 0) := by decide +kernel
theorem witness_ServiceMode_flash :
    ackStatus (exec (.program { tag := 0, param0 := 256, payload := [0x0F], fcrc := crc32c [0x0F] }) (serving (served {}))) = some (0, 0) ∧
    (after (exec (.program { tag := 0, param0 := 256, payload := [0x0F], fcrc := crc32c [0x0F] }) (serving (served {})))).flash = [(256, 0x0F)] ∧
    ackStatus (exec (.program { tag := 0, param0 := 255 }) (serving (served {}))) = some (0x04, 0) ∧
    (after (exec (.erase { tag := 0 }) { serving (served {}) with flash := [(0, 0), (65535, 1), (65536, 2)] })).flash = [(65536, 2)] ∧
    ((after (exec (.read { tag := 0, param1 := 2 }) { serving (served {}) with flash := [(1, 3)] })).link.acks.map DevFrame.payload) = [[0xFF, 3]] := by decide +kernel
theorem witness_KeyRevocation : State.reset.revoked.length = 4 ∧
    ackStatus (exec (.revoke { tag := 0, param0 := 4 }) (serving (served {}))) = some (0x04, 0) ∧
    ackStatus (exec (.revoke { tag := 0, param0 := 3 }) (serving (served {}))) = some (0x0D, 0) := by decide +kernel
theorem witness_InvalidPlates : ({} : State).plateValid 0 = false ∧ ∀ x ∈ ([(5, 0, 1)] : SectorHits), ({} : State).plateValid (x.1 / 32 * 32) = false := by
  decide +kernel
theorem witness_InvalidPlates_run (b : Nat) : ({} : State).plateValid b = false := by
  unfold State.plateValid
  cases addrHome b with
  | none => rfl
  | some x =>
    obtain ⟨h, slow, o⟩ := x
    show (({} : Hub).valid slow (o / 4096)) = false
    unfold Hub.valid
    rw [show ({} : Hub).validBit slow (o / 4096) = false by cases slow <;> rfl,
      show (({} : Hub).sramDecode 0 (bitmapWord slow (o / 4096))).mask = 0 from (by decide +kernel : (secded []).mask = 0)]
    simp [bit]
theorem witness_StepRunsFrontCommand : (∃ s : State, s.pending = .pwrOkRise :: []) ∧ State.reset.pending = [] ∧ State.reset.crownOn = false ∧
    (powered {}).pending = [] ∧ (powered {}).crownOn = true ∧ (match step { pending := [.pwrOkRise] } with | .next t => t.pwrOk | _ => false) = true :=
  ⟨⟨{ pending := [.pwrOkRise] }, rfl⟩, rfl, rfl, rfl, rfl, by decide +kernel⟩
theorem witness_StepsKeepSound : State.Sound State.reset ∧ step State.reset = .next State.reset :=
  ⟨sound_of _ rfl rfl rfl rfl rfl rfl, by rfl⟩

end Sys2Proof.Tests
end

/-! The thread instructions on integers, scalars and predicates, and the compares (R180 to R183): what a word's encoding gives,
what the compare kinds answer, and what each class leaves. -/
namespace Sys2Proof.Machine.Claims

/-! ### Encodings -/

/-- A word that passes the checks of an opcode that is not predicated has PRED and NEG zero (R172). -/
theorem enc_pred {u : Use} {w : Word} (h : encodingCauses u w = []) (hu : u.pred = false) : w.pred = 0 ∧ w.neg = false := by
  unfold encodingCauses at h
  simp only [List.append_eq_nil_iff] at h
  obtain ⟨⟨⟨⟨⟨_, hpred⟩, _⟩, _⟩, _⟩, _⟩ := h
  simpa [hu, and_comm] using hpred

/-- A word that passes the checks of an opcode of one format has that format (R176). -/
theorem fmt_eq_of_enc {u : Use} {w : Word} {f : Nat} (hu : u.fmts = [f]) (h : encodingCauses u w = []) : w.fmt = f := by
  simpa [hu] using enc_fmt h

/-- A format that the opcode does not take is ILLEGAL_FIELD (R176). -/
theorem illegalField_of_fmt {u : Use} {w : Word} (h : w.fmt ∉ u.fmts) : illegalField ∈ encodingCauses u w := by
  simp [encodingCauses, h]

/-- A MOD bit that the opcode does not use is ILLEGAL_FIELD (R176). -/
theorem illegalField_of_mod {u : Use} {w : Word} (h : w.mod &&& (0xFFFFFF ^^^ u.mod) ≠ 0) :
    illegalField ∈ encodingCauses u w := by
  simp [encodingCauses, h]

/-- PRED or NEG in an opcode that is not predicated is ILLEGAL_FIELD (R172, R176). -/
theorem illegalField_of_pred {u : Use} {w : Word} (hu : u.pred = false) (h : w.pred ≠ 0 ∨ w.neg = true) :
    illegalField ∈ encodingCauses u w := by
  have hset : w.neg = true ∨ w.pred ≠ 0 := h.symm
  simp [encodingCauses, hu, hset]

/-- The compare kind in a MOD field of 24 bits. -/
theorem bits_kind {m : Nat} (h : m < 2 ^ 24) : bits m 23 20 = m / 2 ^ 20 := by
  unfold bits
  rw [Nat.shiftRight_eq_div_pow]
  omega

/-- A MOD field whose bits 23 to 4 are zero holds kind 0. -/
theorem kind_eq_zero {m : Nat} (h : m < 2 ^ 24) (h0 : m &&& (0xFFFFFF ^^^ 0xF) = 0) : m / 2 ^ 20 = 0 := by
  have hshift : m >>> 20 &&& 2 ^ 4 - 1 = 0 := by
    have := congrArg (· >>> 20) h0
    rwa [Nat.shiftRight_and_distrib] at this
  rw [Nat.and_two_pow_sub_one_eq_mod, Nat.shiftRight_eq_div_pow] at hshift
  omega

/-! ### Field uses of the scalar class -/

/-- A scalar instruction of two operands writes a scalar register, whatever its FMT (R182). -/
theorem useScalar_dst (w : Word) : (useScalar w).dst = .sreg := by unfold useScalar; split <;> rfl

/-- The scalar class takes FMT 0x0 and 0x1 (R182). -/
theorem useScalar_fmts (w : Word) : (useScalar w).fmts = [0, 1] := by unfold useScalar; split <;> rfl

/-- The scalar class is not predicated (R182). -/
theorem useScalar_pred (w : Word) : (useScalar w).pred = false := by unfold useScalar; split <;> rfl

/-- SCMP writes a predicate, whatever its FMT (R182). -/
theorem useScmp_dst (w : Word) : (useScmp w).dst = .pred := by by_cases h : w.fmt = 1 <;> simp [useScmp, h]

/-- SCMP takes FMT 0x0 and 0x1 with an assigned kind and no format with a reserved one (R180, R182). -/
theorem useScmp_fmts (w : Word) : (useScmp w).fmts = if kindOk (bits w.mod 23 20) then [0, 1] else [] := by
  by_cases h : w.fmt = 1 <;> simp [useScmp, h]

/-- SCMP is not predicated (R182). -/
theorem useScmp_pred (w : Word) : (useScmp w).pred = false := by by_cases h : w.fmt = 1 <;> simp [useScmp, h]

/-- A format other than 0x0 and 0x1 is none of SCMP's, whatever its kind (R182). -/
theorem fmt_notMem_useScmp {w : Word} (h : w.fmt ≠ 0 ∧ w.fmt ≠ 1) : w.fmt ∉ (useScmp w).fmts := by
  rw [useScmp_fmts]
  split <;> simp [h]

/-! ### Compare kinds -/

/-- Two's complement of a number is the signed value of its low bits. -/
theorem toInt_ofNat_eq_sext {n : Nat} (hn : 0 < n) (m : Nat) : (BitVec.ofNat n m).toInt = sext n m := by
  obtain ⟨k, rfl⟩ := Nat.exists_eq_add_one_of_ne_zero hn.ne'
  unfold sext
  rw [BitVec.toInt_eq_toNat_cond, BitVec.toNat_ofNat, Nat.add_sub_cancel, Nat.pow_succ]
  have hhalf : 2 * (m % (2 ^ k * 2)) < 2 ^ k * 2 ↔ m % (2 ^ k * 2) < 2 ^ k := by omega
  simp only [hhalf]

/-- Two's complement of a word is its signed value. -/
theorem sext_toNat {n : Nat} (hn : 0 < n) (a : BitVec n) : sext n a.toNat = a.toInt := by
  rw [← toInt_ofNat_eq_sext hn, BitVec.ofNat_toNat, BitVec.setWidth_eq]

/-- A reserved kind compares nothing (R180). -/
theorem intCompare_reserved {k : Nat} (hk : (6 ≤ k ∧ k ≤ 9) ∨ 0xE ≤ k) (n a b : Nat) : intCompare k n a b = none := by
  unfold intCompare
  split
  case h_11 => rfl
  all_goals omega

/-- Whether a kind is assigned does not depend on what it compares. -/
theorem isSome_intCompare (k n a b : Nat) : (intCompare k n a b).isSome = kindOk k := by
  unfold kindOk intCompare
  split <;> rfl

/-- An assigned kind answers. -/
theorem intCompare_of_kindOk {k : Nat} (hk : kindOk k = true) (n a b : Nat) :
    intCompare k n a b = some ((intCompare k n a b).getD false) := by
  obtain ⟨c, hc⟩ := Option.isSome_iff_exists.1 ((isSome_intCompare k n a b).trans hk)
  rw [hc, Option.getD_some]

/-- A reserved kind is not assigned. -/
theorem kindOk_reserved {k : Nat} (hk : (6 ≤ k ∧ k ≤ 9) ∨ 0xE ≤ k) : kindOk k = false := by
  simp [kindOk, intCompare_reserved hk]

/-- A use that takes formats for an assigned kind only, and takes this one, has an assigned kind (R180). -/
theorem kindOk_of_fmts {k : Nat} {l : List Nat} {f : Nat} (h : f ∈ if kindOk k then l else []) : kindOk k = true := by
  by_contra hk
  simp [hk] at h

/-- The kinds on words: equality, the signed orders and the unsigned ones (R180). -/
theorem intCompare_toNat {n : Nat} (hn : 0 < n) (a b : BitVec n) :
    intCompare 0x0 n a.toNat b.toNat = some (decide (a = b)) ∧ intCompare 0x1 n a.toNat b.toNat = some (decide (a ≠ b)) ∧
    intCompare 0x2 n a.toNat b.toNat = some (a.slt b) ∧ intCompare 0x3 n a.toNat b.toNat = some (a.sle b) ∧
    intCompare 0x4 n a.toNat b.toNat = some (b.slt a) ∧ intCompare 0x5 n a.toNat b.toNat = some (b.sle a) ∧
    intCompare 0xA n a.toNat b.toNat = some (a.ult b) ∧ intCompare 0xB n a.toNat b.toNat = some (a.ule b) ∧
    intCompare 0xC n a.toNat b.toNat = some (b.ult a) ∧ intCompare 0xD n a.toNat b.toNat = some (b.ule a) := by
  simp [intCompare, sext_toNat hn, BitVec.toInt_inj, BitVec.slt, BitVec.sle, BitVec.ult, BitVec.ule]

/-- With a NaN every kind but NE is false (R180). -/
theorem fpCompare_nan (k : Nat) {a b : Num} (h : a = .nan ∨ b = .nan) : fpCompare k a b = true ↔ k = 1 := by
  simp [fpCompare, h]

/-- Without a NaN the kinds are those of the order of the values (R180). -/
theorem fpCompare_of_ne_nan {a b : Num} (ha : a ≠ .nan) (hb : b ≠ .nan) :
    (fpCompare 0 a b = true ↔ a.cmp b = 0) ∧ (fpCompare 1 a b = true ↔ a.cmp b ≠ 0) ∧
    (fpCompare 2 a b = true ↔ a.cmp b < 0) ∧ (fpCompare 3 a b = true ↔ a.cmp b ≤ 0) ∧
    (fpCompare 4 a b = true ↔ 0 < a.cmp b) ∧ (fpCompare 5 a b = true ↔ 0 ≤ a.cmp b) := by
  simp [fpCompare, ha, hb]

/-- Zeros of either sign are equal (R180). -/
theorem cmp_zeros (p q : Bool) (e f : Int) : (Num.fin p 0 e).cmp (.fin q 0 f) = 0 := by
  cases p <;> cases q <;> simp [Num.cmp, signedAt]

/-- The immediate of a scalar instruction, sign-extended from its MOD bits (R182). -/
theorem ofInt_sext {n : Nat} (hn : 0 < n) (m : Nat) : BitVec.ofInt 64 (sext n m) = (BitVec.ofNat n m).signExtend 64 := by
  rw [← toInt_ofNat_eq_sext hn]; rfl

/-- Operand B as the statements spell it. -/
theorem opB_eq_operandB (e : TEnv) {n : Nat} (hn : 0 < n) : e.opB n = operandB e n := by
  unfold TEnv.opB operandB
  rw [ofInt_sext hn]

/-! ### Writes of one register -/

/-- The launch of an instruction that only writes registers collects the conditions that it names. -/
theorem done_notes {op use i s e} (h : issued op use i s = some e) (x : Ctx) (inv ovf : Bool) :
    notes i e (settle e (e.done x inv ovf)) inv ovf := by
  obtain ⟨ht, hk, hc, _⟩ := issued_place h
  exact (finish_spec ht hk hc x none inv ovf).2.1

/-- An instruction that passes its checks and writes a predicate names one. -/
theorem issued_dst_pred {op use i s e} (h : issued op use i s = some e) (hu : (use e.w).dst = .pred) : 48 ≤ e.w.dst :=
  (dst_pred (hu ▸ enc_dst (issued_enc h).1)).1

/-- An instruction that passes its checks and writes a scalar register names one. -/
theorem issued_dst_sreg {op use i s e} (h : issued op use i s = some e) (hu : (use e.w).dst = .sreg) : 32 ≤ e.w.dst :=
  (dst_sreg (hu ▸ enc_dst (issued_enc h).1)).1

/-- A lane compare: the active lanes of one predicate are written, and no condition is raised (R180). -/
theorem done_predLanes {op use i s e} (h : issued op use i s = some e) (hu : (use e.w).dst = .pred) (f : Nat → Bool) :
    ∃ v, predicateIs i e (settle e (e.done (e.writePredLanes e.x e.w.dst f))) v ∧
      lanesOver e (readPred e.x e.w.dst) f v ∧
      notes i e (settle e (e.done (e.writePredLanes e.x e.w.dst f))) false false ∧
      goesOn i e (settle e (e.done (e.writePredLanes e.x e.w.dst f))) ∧
      onlyContext i e (settle e (e.done (e.writePredLanes e.x e.w.dst f))) := by
  obtain ⟨hpred, hgoes, honly⟩ := done_pred h (issued_dst_pred h hu) _
  exact ⟨_, hpred, lanesOver_written e _ f, done_notes h _ false false, hgoes, honly⟩

/-! ### Integer lanes -/

/-- Each row of the vector integer class is the thread instruction of its opcode with its function on lanes. -/
theorem exec_intRow : ∀ r ∈ intRows, ∀ i s,
    exec (r.2.1 i) s = thread r.1 (fun _ => useInt) (fun e => e.writeInt r.2.2) i s := by
  simp only [intRows, List.forall_mem_cons, List.not_mem_nil, false_implies, implies_true, and_true, ← BitVec.slt_iff_toInt_lt]
  exact ⟨fun _ _ => rfl, fun _ _ => rfl, fun _ _ => rfl, fun _ _ => rfl, fun _ _ => rfl, fun _ _ => rfl, fun _ _ => rfl,
    fun _ _ => rfl, fun _ _ => rfl, fun _ _ => rfl, fun _ _ => rfl⟩

/-- Settles O1: a row writes its function on the active lanes of the vector destination; ICMP's kind is assigned, so every lane has
an answer. -/
theorem integerLanes : Obligations.IntegerLanes := by
  unfold Obligations.IntegerLanes
  refine ⟨fun r hr i s e h => ?rows, fun i s e h => ?vlane, fun i s e h => ?icmp, fun u w hu hc => fmt_eq_of_enc hu hc⟩
  case rows =>
    rw [exec_intRow r hr]
    exact ⟨_, thread_of_issued _ h, done_vec h _ false false _ rfl⟩
  case vlane => exact ⟨_, thread_of_issued _ h, done_vec h _ false false _ rfl⟩
  case icmp =>
    have hk := kindOk_of_fmts (enc_fmt (issued_enc h).1)
    obtain ⟨v, hpred, hlanes, hrest⟩ := done_predLanes h rfl fun l =>
      (intCompare (bits e.w.mod 23 20) 32 (e.lane e.w.s1 l).toNat (e.lane e.w.s2 l).toNat).getD false
    exact ⟨_, v, _, thread_of_issued _ h, hpred, fun l _ => intCompare_of_kindOk hk _ _ _, hlanes, hrest⟩

/-! ### Compares -/

/-- Settles O3: VCMP writes lanes of a predicate and SCMP a whole one, neither with a condition; the kinds are those of the orders of
values and words; a kind over 5 leaves MOD bits that VCMP does not use, and a reserved one leaves ICMP and SCMP no format. -/
theorem compares : Obligations.Compares := by
  unfold Obligations.Compares
  refine ⟨fun i s e h => ?vcmp, fun i s e h => ⟨_, thread_of_issued _ h, done_notes h _ false false⟩,
    fun a b ha hb => fpCompare_of_ne_nan ha hb, fun k a b => fpCompare_nan k,
    fun e f => ⟨cmp_zeros _ _ e f, cmp_zeros _ _ e f⟩, fun n k a b hn => ?words, fun w hw => ⟨fun hk => ?kind, fun hk => ?reserved⟩⟩
  case vcmp =>
    obtain ⟨v, hdone⟩ := done_predLanes h rfl fun l => fpCompare (bits e.w.mod 23 20) (e.num 0 l) (e.num 1 l)
    exact ⟨_, v, thread_of_issued _ h, hdone⟩
  case words =>
    obtain ⟨eq, ne, slt, sle, sgt, sge, ult, ule, ugt, uge⟩ := intCompare_toNat hn a b
    refine ⟨?_, ?_, ?_, ?_, ?_, ?_, ?_, ?_, ?_, ?_, fun hk => intCompare_reserved hk _ _ _⟩ <;> (rintro rfl; assumption)
  case kind =>
    have hk5 : ¬ bits w.mod 23 20 ≤ 5 := by rw [bits_kind hw]; omega
    refine illegalField_of_mod fun h0 => ?_
    rw [if_neg hk5] at h0
    have := kind_eq_zero hw h0
    omega
  case reserved =>
    have hno : kindOk (bits w.mod 23 20) = false := by rw [bits_kind hw]; exact kindOk_reserved hk
    exact ⟨illegalField_of_fmt (by simp [hno]), illegalField_of_fmt (by simp [useScmp_fmts, hno])⟩

/-! ### Scalars -/

/-- Each row of the scalar class is the thread instruction of its opcode with its function of src1 and B. -/
theorem exec_scalarRow : ∀ r ∈ scalarRows, ∀ i s, exec (r.2.1 i) s = thread r.1 useScalar (fun e => e.writeS r.2.2) i s := by
  simp only [scalarRows, List.forall_mem_cons, List.not_mem_nil, false_implies, implies_true, and_true]
  exact ⟨fun _ _ => rfl, fun _ _ => rfl, fun _ _ => rfl, fun _ _ => rfl, fun _ _ => rfl, fun _ _ => rfl, fun _ _ => rfl,
    fun _ _ => rfl, fun _ _ => rfl⟩

/-- Settles O4: a row writes its function of src1 and B to the scalar that the word names; SCMP's kind is assigned, so it has an answer;
a FMT, PRED or NEG that the class does not take fails the encoding. -/
theorem scalars : Obligations.Scalars := by
  unfold Obligations.Scalars
  refine ⟨fun r hr i s e h => ?rows, fun i s e h => ?smovi, fun i s e h => ?slui, fun i s e h => ?scmp,
    fun w hw => ?fields, fun w hw => ?imm⟩
  case rows =>
    rw [exec_scalarRow r hr, ← opB_eq_operandB e (by decide)]
    exact ⟨_, thread_of_issued _ h, done_scalar h (issued_dst_sreg h (useScalar_dst _)) _⟩
  case smovi =>
    rw [← ofInt_sext (by decide)]
    exact ⟨_, thread_of_issued _ h, done_scalar h (issued_dst_sreg h rfl) _⟩
  case slui => exact ⟨_, thread_of_issued _ h, done_scalar h (issued_dst_sreg h rfl) _⟩
  case scmp =>
    have hk : kindOk (bits e.w.mod 23 20) = true := kindOk_of_fmts (useScmp_fmts e.w ▸ enc_fmt (issued_enc h).1)
    rw [← opB_eq_operandB e (by decide)]
    exact ⟨_, _, thread_of_issued _ h, intCompare_of_kindOk hk _ _ _, done_pred h (issued_dst_pred h (useScmp_dst _)) _⟩
  case fields =>
    rcases hw with hfmt | hpred
    · exact ⟨illegalField_of_fmt (by simpa [useScalar_fmts] using hfmt), illegalField_of_fmt (fmt_notMem_useScmp hfmt)⟩
    · exact ⟨illegalField_of_pred (useScalar_pred w) hpred, illegalField_of_pred (useScmp_pred w) hpred⟩
  case imm =>
    rcases hw with hfmt | hpred
    · exact illegalField_of_fmt (by simpa using hfmt)
    · exact illegalField_of_pred rfl hpred

/-! ### Predicates -/

/-- Settles O5: the destination of the class is a predicate register, written whole. -/
theorem predicates : Obligations.Predicates := by
  unfold Obligations.Predicates
  simp only [List.forall_mem_cons, List.not_mem_nil, false_implies, implies_true, and_true]
  refine ⟨⟨fun i s e h => ?pand, fun i s e h => ?por, fun i s e h => ?pxor⟩, ⟨fun i s e h => ?pnot, fun i s e h => ?pmov⟩,
    fun i s e h => ?pset, fun u w hfmt hu hc => ⟨fmt_eq_of_enc hfmt hc, enc_pred hc hu⟩⟩
  all_goals exact ⟨_, thread_of_issued _ h, done_pred h (issued_dst_pred h rfl) _⟩

end Sys2Proof.Machine.Claims

/-! Reads of memory in plates that are not valid (R232): an address and its sector share a plate, so a sector of a range in invalid
plates reads as zeros, and the whole range with it. -/
namespace Sys2Proof.Machine.Claims

/-! ### Sectors and plates -/

/-- A sector lies where its addresses lie: the slices begin at sectors (R203). -/
theorem addrHome_sectorOf (a : Nat) : addrHome (sectorOf a) = (addrHome a).map fun x => (x.1, x.2.1, sectorOf x.2.2) := by
  have hbm : sectorOf a < 8 * hbmSlice ↔ a < 8 * hbmSlice := by unfold sectorOf hbmSlice; omega
  have lo : slowBase ≤ sectorOf a ↔ slowBase ≤ a := by unfold sectorOf slowBase; omega
  have hi : sectorOf a < slowBase + 8 * slowSlice ↔ a < slowBase + 8 * slowSlice := by
    unfold sectorOf slowBase slowSlice; omega
  simp only [addrHome, hbm, lo, hi, Bool.and_eq_true, decide_eq_true_eq]
  split
  · simp only [Option.map_some, Option.some.injEq, Prod.mk.injEq, true_and]
    unfold sectorOf hbmSlice
    omega
  · split
    next hslow =>
      obtain ⟨hbase, _⟩ := hslow
      simp only [Option.map_some, Option.some.injEq, Prod.mk.injEq, true_and]
      unfold sectorOf slowSlice
      unfold slowBase at hbase ⊢
      omega
    next => rfl

/-- A plate is whole sectors: the offsets of a sector lie in one plate. -/
theorem sectorOf_div_plate (o : Nat) : sectorOf o / 4096 = o / 4096 := by unfold sectorOf; omega

/-- An address's plate is valid where its sector's is. -/
theorem plateValid_sectorOf (s : State) (a : Nat) : s.plateValid (sectorOf a) = s.plateValid a := by
  unfold State.plateValid
  rw [addrHome_sectorOf]
  cases addrHome a with
  | none => rfl
  | some x => simp only [Option.map_some, sectorOf_div_plate]

/-- Each sector of a byte range is the sector of one of its bytes. -/
theorem exists_byte_of_mem_sectorsOf {a n x : Nat} (hx : x ∈ sectorsOf a n) : ∃ b, a ≤ b ∧ b < a + n ∧ sectorOf b = x := by
  unfold sectorsOf at hx
  split at hx
  next => simp at hx
  next hn =>
    obtain ⟨i, hi, rfl⟩ := List.mem_map.1 hx
    rw [List.mem_range] at hi
    exact ⟨max a ((a / 32 + i) * 32), by omega, by omega, by unfold sectorOf; omega⟩

/-- The sectors of a byte range hold its bytes. -/
theorem le_sectorsOf_length (a n : Nat) (hn : n ≠ 0) : a % 32 + n ≤ (sectorsOf a n).length * 32 := by
  rw [sectorsOf, if_neg hn, List.length_map, List.length_range]
  omega

/-! ### Reads and upsets -/

/-- A sector of an invalid plate reads as zeros, with no symbol corrected and none in error (R232). -/
theorem readSector_of_invalid {s : State} {a : Nat} (h : s.plateValid a = false) :
    s.readSector a = (List.replicate 32 0, 0, false) := by
  simp [State.readSector, h]

/-- Runs of one byte, as many as a list is long, are a run. -/
theorem flatMap_replicate (l : List Nat) (k : Nat) (b : Byte) :
    l.flatMap (fun _ => List.replicate k b) = List.replicate (l.length * k) b := by
  rw [List.flatMap_def, List.map_const', List.flatten_replicate_replicate]

/-- A range whose sectors all read as zeros reads as zeros, and no decode of it counts. -/
theorem readMem_of_zero_sectors {s : State} {a n : Nat}
    (h : ∀ x ∈ sectorsOf a n, s.readSector x = (List.replicate 32 0, 0, false)) :
    s.readMem a n = (some (List.replicate n 0), { fixed := 0, bad := [], twoSym := [] }) := by
  have hreads : (sectorsOf a n).map (fun x => (x, s.readSector x)) =
      (sectorsOf a n).map (fun x => (x, List.replicate 32 (0 : Byte), 0, false)) :=
    List.map_congr_left fun x hx => by rw [h x hx]
  have hcut : min n ((sectorsOf a n).length * 32 - a % 32) = n := by
    rcases Nat.eq_zero_or_pos n with rfl | hn
    · exact Nat.zero_min _
    · have := le_sectorsOf_length a n hn.ne'
      omega
  simp [-List.reduceReplicate, State.readMem, hreads, List.filter_map, List.flatMap_map, flatMap_replicate, hcut, Function.comp_def]

/-- An upset in a plate that stores nothing strikes nothing, so upsets of such plates leave the state. -/
theorem hitSectors_of_unstored (s : State) (hits : SectorHits) (h : ∀ x ∈ hits, s.plateStored (sectorOf x.1) = false) :
    s.hitSectors hits = s := by
  induction hits with
  | nil => rfl
  | cons x hits ih =>
    obtain ⟨hx, hrest⟩ := List.forall_mem_cons.1 h
    have hhead : s.hitSectors (x :: hits) = s.hitSectors hits := by
      simp [State.hitSectors, hx]
    rw [hhead, ih hrest]

/-- Settles O56: every sector of the range shares the plate of one of its bytes, which is not valid. -/
theorem invalidPlates : Obligations.InvalidPlates := by
  unfold Obligations.InvalidPlates
  refine ⟨fun s a h => readSector_of_invalid h, fun s a n h => ?range, fun s hits h => hitSectors_of_unstored s hits h⟩
  case range =>
    refine readMem_of_zero_sectors fun x hx => readSector_of_invalid ?_
    obtain ⟨b, hlo, hhi, rfl⟩ := exists_byte_of_mem_sectorsOf hx
    rw [plateValid_sectorOf, h b hlo hhi]

end Sys2Proof.Machine.Claims

/-! Host frames and the revoke fuses (R485, R503, R504, R511): what a taken frame answers from the effect of its command, and that REVOKE
never blows the fuse of the slot that verifies. -/
namespace Sys2Proof.Machine.Claims

/-! ### Host frames -/

/-- The ACK held for a tag is the first one of that tag. -/
theorem lookup_eq_find {α β : Type} [BEq α] [LawfulBEq α] (l : List (α × β)) (a : α) :
    l.lookup a = (l.find? fun x => x.1 == a).map Prod.snd := by
  induction l with
  | nil => rfl
  | cons x l ih =>
    rw [List.lookup_cons, List.find?_cons, ih, BEq.comm]
    cases x.1 == a <;> rfl

/-- The CRC test of R510 as the claims write it. -/
theorem not_frameCrcOk_iff (f : Frame) :
    (!frameCrcOk f) = true ↔ f.fcrc ≠ (if f.payload = [] then 0 else crc32c f.payload) := by
  simp [frameCrcOk]

/-- The tests of the common fields as the claims write them (R510, R512). -/
theorem frameHeaderOk_iff (f : Frame) (flags : Byte) :
    frameHeaderOk f flags = true ↔ f.status = 0 ∧ (f.flags &&& ~~~flags) = 0 ∧ f.payload.length ≤ 65536 := by
  simp [frameHeaderOk, and_assoc]

/-- A state whose link has taken the tag of a frame (R511). -/
def tagTaken (s : State) (f : Frame) : State := { s with link := { s.link with expected := f.tag + 1 } }

/-- A command whose run has an effect, from the state that has taken its tag, answers its frame with that effect (R511). -/
theorem hosted_take {s : State} {f : Frame} {flags : Byte} {run : State → Reply × State} {E : Effect}
    (h : E (tagTaken s f) (run (tagTaken s f)).1 (run (tagTaken s f)).2) : hosted f flags E s (s.take f flags run) := by
  unfold hosted State.take
  rw [lookup_eq_find]
  by_cases hdown : s.link.up = false ∨ s.crownOn = false
  · rw [if_pos hdown, if_pos (by simpa using hdown)]
  · rw [if_neg hdown, if_neg (by simpa using hdown)]
    cases s.link.recent.find? fun x => x.1 == f.tag with
    | some x => rfl
    | none =>
      simp only [Option.map_none]
      by_cases htag : f.tag = s.link.expected
      case neg => rw [if_pos htag, if_pos htag]; rfl
      rw [if_neg (not_not.2 htag), if_neg (not_not.2 htag)]
      by_cases hbusy : 8 ≤ s.link.outstanding
      case pos => rw [if_pos hbusy, if_pos hbusy]; rfl
      rw [if_neg hbusy, if_neg hbusy]
      by_cases hcrc : f.fcrc = (if f.payload = [] then 0 else crc32c f.payload)
      case neg => rw [if_pos hcrc, if_pos ((not_frameCrcOk_iff f).2 hcrc)]; rfl
      rw [if_neg (not_not.2 hcrc), if_neg (mt (not_frameCrcOk_iff f).1 (not_not.2 hcrc)), ← htag]
      simp only [← frameHeaderOk_iff]
      cases hgood : frameHeaderOk f flags with
      | true => exact ⟨_, _, fun _ => h, fun hbad => absurd rfl hbad, rfl⟩
      | false => exact ⟨{ status := 0x04 }, tagTaken s f, fun hgood => absurd hgood Bool.false_ne_true, fun _ => ⟨rfl, rfl⟩, rfl⟩

/-- A service operation answers its frame with the effect that its run has in service mode (R520). -/
theorem hosted_serviceOp {s : State} {f : Frame} {run : State → Reply × State} {E : Effect}
    (h : E (tagTaken s f) (run (tagTaken s f)).1 (run (tagTaken s f)).2) : hosted f 0 (inService E) s (s.serviceOp f run) := by
  refine hosted_take ?_
  unfold inService
  cases hmode : (tagTaken s f).startup.service with
  | true => exact h
  | false => exact ⟨rfl, rfl⟩

/-! ### Revoke fuses -/

/-- Blowing one of the fuses blows that one and no other. -/
theorem lget_lset_true {l : List Bool} {n : Nat} (hn : n < l.length) (k : Nat) :
    lget false (lset l n true) k = (lget false l k || k == n) := by
  simp only [lget, lset, List.getD_eq_getElem?_getD, List.getElem?_set]
  by_cases hk : n = k
  · subst hk; simp [hn]
  · simp [hk, Ne.symm hk]

/-- A write of one element leaves what every other index reads. -/
theorem lget_lset_of_ne {α : Type} {d v : α} {l : List α} {k n : Nat} (h : k ≠ n) : lget d (lset l n v) k = lget d l k := by
  simp [lget, lset, List.getElem?_set_ne h.symm]

/-- A fuse that reads whole is one that the device has: a missing one reads blown. -/
theorem lt_length_of_lget_true {l : List Bool} {k : Nat} (h : lget true l k = false) : k < l.length := by
  by_contra hk
  rw [lget, List.getD_eq_default _ _ (not_lt.1 hk)] at h
  contradiction

/-- The key check of R485: the header's slot is present and not revoked, and holds the digest of the key. -/
theorem keyOk_iff (s : State) : s.keyOk = true ↔ ∃ d, lget none s.keySlots (s.flashNat 38 1) = some d ∧
    lget true s.revoked (s.flashNat 38 1) = false ∧ d = BitVec.ofNat 512 (beNat (sha512 (s.flashBytes 3328 133))) := by
  unfold State.keyOk
  cases hslot : lget none s.keySlots (s.flashNat 38 1) with
  | none => simp [hslot]
  | some d => simp [hslot, and_comm]

/-- A pattern that verifies has a key that does: each check that fails first, the key's included, has a code that is not 0 (R485, R499,
R503). -/
theorem keyOk_of_verifyCode {s : State} (h : s.verifyCode = 0) : s.keyOk = true := by
  have himage : s.imageCode = 0 := by
    unfold State.verifyCode at h
    by_contra himage
    exact himage (by rwa [if_pos himage] at h)
  unfold State.imageCode at himage
  split_ifs at himage <;> simp_all

/-- Of the fuses, verification reads only the one of the header's slot (R485, R503, R504). -/
theorem verifyCode_revoke_other {s : State} {n : Nat} (h : s.flashNat 38 1 ≠ n) :
    ({ s with revoked := lset s.revoked n true } : State).verifyCode = s.verifyCode := by
  have hkey : ({ s with revoked := lset s.revoked n true } : State).keyOk = s.keyOk := by
    rw [Bool.eq_iff_iff, keyOk_iff s, ← lget_lset_of_ne (d := true) (v := true) (l := s.revoked) h]
    exact keyOk_iff _
  unfold State.verifyCode State.imageCode
  rw [hkey]
  rfl

/-- Settles O55: the effect is that of the service operation's three answers, and verification reads no fuse but that of the slot that
verifies, which is not the one blown. -/
theorem keyRevocation : Obligations.KeyRevocation := by
  unfold Obligations.KeyRevocation
  refine ⟨fun f s hwide => ⟨_, rfl, hosted_serviceOp ?effect⟩, fun s n hwide hverify hslot => ?usable⟩
  case effect =>
    by_cases hbig : 3 < f.param0.toNat
    · simp only [if_pos hbig]
      exact ⟨rfl, rfl⟩
    · simp only [if_neg hbig, Bool.and_eq_true, decide_eq_true_eq]
      by_cases hmay : (tagTaken s f).verifyCode = 0 ∧ (tagTaken s f).flashNat 38 1 ≠ f.param0.toNat
      · simp only [if_pos hmay, true_and, and_true]
        exact ⟨lget_lset_true (hwide.symm ▸ Nat.lt_of_not_ge hbig), List.length_set.trans hwide⟩
      · simp only [if_neg hmay]
        exact ⟨rfl, rfl⟩
  case usable =>
    have hwhole : lget true s.revoked (s.flashNat 38 1) = false := by
      obtain ⟨_, _, hwhole, _⟩ := (keyOk_iff s).1 (keyOk_of_verifyCode hverify)
      exact hwhole
    refine ⟨hwide ▸ lt_length_of_lget_true hwhole, ?_, (verifyCode_revoke_other hslot).trans hverify⟩
    exact (lget_lset_of_ne hslot).trans hwhole

end Sys2Proof.Machine.Claims
